-- ==== Sys2Proof/Word.lean ====
section
/-! DEFINITION. The values FCBA works on: bytes, the `DeviceState` value type and the `Frame` record
(spec/10_state.md R10 to R14, R19; spec/30_encoding.md R50, R51). -/
namespace Sys2Proof

/-- A byte: an unsigned integer 0 to 255, bit 0 the least significant (spec/00_scope.md section 5.1). -/
abbrev Byte := BitVec 8

/-- Element `i` of a byte buffer, counted from 0. Every use inside the model is within the buffer
(spec/92_eei_decisions.md D26 shuts the others out). -/
abbrev byteAt (b : List Byte) (i : Nat) : Byte := b.getD i 0

/-- `XOR(b)`: the exclusive or of a byte sequence, 0 over the empty one (spec/00_scope.md section 5.1). -/
def xorAll (b : List Byte) : Byte := b.foldr (fun x y => x ^^^ y) 0

/-- R11. `unknown` is an explicit variant, never decoded from a frame. -/
inductive Power
  | unknown | on | off
  deriving DecidableEq, Repr, Inhabited

/-- R12. -/
inductive Mode
  | unknown | auto | cool | dry | fan | heat
  deriving DecidableEq, Repr, Inhabited

/-- R13. -/
inductive FanSpeed
  | unknown | auto | min | mid | max
  deriving DecidableEq, Repr, Inhabited

/-- R10: a plain value of exactly four fields; `temperature` is an unsigned byte (R14). -/
structure DeviceState where
  power       : Power
  mode        : Mode
  fanSpeed    : FanSpeed
  temperature : Byte
  deriving DecidableEq, Repr, Inhabited

/-- R10: the default DeviceState, every enumeration `unknown` and temperature 0. -/
def DeviceState.initial : DeviceState :=
  { power := .unknown, mode := .unknown, fanSpeed := .unknown, temperature := 0 }

/-- The eight data bytes `data[0]` to `data[7]` of a frame (R50; `DATA_LEN` = 8 in R6). -/
structure Data where
  d0 : Byte
  d1 : Byte
  d2 : Byte
  d3 : Byte
  d4 : Byte
  d5 : Byte
  d6 : Byte
  d7 : Byte
  deriving DecidableEq, Repr, Inhabited

/-- `data[0]` to `data[7]` in index order. -/
def Data.toList (d : Data) : List Byte := [d.d0, d.d1, d.d2, d.d3, d.d4, d.d5, d.d6, d.d7]

/-- The Frame record of a decoded message (R19, R51; conflict C6): 12 bytes of content. -/
structure Frame where
  source      : Byte
  destination : Byte
  command     : Byte
  data        : Data
  checksum    : Byte
  deriving DecidableEq, Repr, Inhabited

/-- `Reencode(f)` of R87 item 1: the eleven covered bytes in order. -/
def Frame.covered (f : Frame) : List Byte :=
  [f.source, f.destination, f.command] ++ f.data.toList

end Sys2Proof
end

