-- ==== Sys2Proof/Config.lean ====
section
/-! DEFINITION. The open parameters of spec/00_scope.md R7, their constraints (R8), instantiation T of
spec/93_implementation_defined.md section 3, and the FREE VALUES: opaque constants without a body,
of which no proof can see a value. -/
namespace Sys2Proof

/-- `FAN_BITS`, a total function FanSpeed to byte, as its table (R7, R8 item 4). -/
structure FanBits where
  unknown : Byte
  auto    : Byte
  min     : Byte
  mid     : Byte
  max     : Byte
  deriving DecidableEq, Repr, Inhabited

def FanBits.of (t : FanBits) : FanSpeed → Byte
  | .unknown => t.unknown
  | .auto => t.auto
  | .min => t.min
  | .mid => t.mid
  | .max => t.max

/-- `MODE_RAW`, a total function Mode to byte, as its table (R7, R8 items 2 and 4). -/
structure ModeRaw where
  unknown : Byte
  auto    : Byte
  cool    : Byte
  dry     : Byte
  fan     : Byte
  heat    : Byte
  deriving DecidableEq, Repr, Inhabited

def ModeRaw.of (t : ModeRaw) : Mode → Byte
  | .unknown => t.unknown
  | .auto => t.auto
  | .cool => t.cool
  | .dry => t.dry
  | .fan => t.fan
  | .heat => t.heat

/-- `POWER_RAW`, a total function Power to byte, as its table (R7, R8 item 4). -/
structure PowerRaw where
  unknown : Byte
  on      : Byte
  off     : Byte
  deriving DecidableEq, Repr, Inhabited

def PowerRaw.of (t : PowerRaw) : Power → Byte
  | .unknown => t.unknown
  | .on => t.on
  | .off => t.off

/-- R7: the parameters the source names but gives no value for. Durations are in milliseconds.
`tTick`, `qDepth` and `wTime` are read by no rule of the model: the interval between ticks is free
(R123), the model's queue is an unbounded list (R18) and its time an unbounded natural (R138). -/
structure Params where
  startMark  : Byte
  endMark    : Byte
  addrRemote : Byte
  addrUnit   : Byte
  addrMarker : Byte
  cmdSet     : Byte
  kSwingOff  : Byte
  kByte1     : Byte
  fanBits    : FanBits
  modeRaw    : ModeRaw
  powerRaw   : PowerRaw
  tPoll      : Nat
  tBody      : Nat
  tSettle    : Nat
  tTxWait    : Nat
  tTick      : Nat
  tInterbyte : Nat
  qDepth     : Option Nat
  wTime      : Option Nat
  deriving DecidableEq, Repr, Inhabited

/-- R8 item 1: `FAN_BITS(f) & 0x1F == 0` for every fan speed. -/
def FanBits.valid (t : FanBits) : Bool :=
  t.unknown &&& 0x1F == 0 && t.auto &&& 0x1F == 0 && t.min &&& 0x1F == 0 &&
    t.mid &&& 0x1F == 0 && t.max &&& 0x1F == 0

/-- R8 item 2: the five known modes have the raw values 0 to 4; `MODE_RAW(Unknown)` is open. -/
def ModeRaw.valid (t : ModeRaw) : Bool :=
  t.auto == 0 && t.cool == 1 && t.dry == 2 && t.fan == 3 && t.heat == 4

/-- R8: the constraints on a parameter set (item 4 holds by the types, item 5 asks nothing). -/
def Params.valid (p : Params) : Bool :=
  p.fanBits.valid && p.modeRaw.valid && decide (p.tPoll < p.tBody) && decide (p.tBody < p.tTxWait)

/-- Instantiation T (spec/93_implementation_defined.md section 3): ONE value of the parameters, from
general knowledge and not from the source (PRESUMED, log entry 2). `tInterbyte` has no value in T;
16 ms lies in the 13.8 to 18.3 ms of R141. -/
def Params.instT : Params where
  startMark := 0x32
  endMark := 0x34
  addrRemote := 0x84
  addrUnit := 0x20
  addrMarker := 0xAD
  cmdSet := 0xA0
  kSwingOff := 0x1F
  kByte1 := 0x18
  fanBits := { unknown := 0x00, auto := 0x00, min := 0x40, mid := 0x80, max := 0xA0 }
  modeRaw := { unknown := 0, auto := 0, cool := 1, dry := 2, fan := 3, heat := 4 }
  powerRaw := { unknown := 0xC4, on := 0xF4, off := 0xC4 }
  tPoll := 20
  tBody := 100
  tSettle := 10
  tTxWait := 300
  tTick := 50
  tInterbyte := 16
  qDepth := none
  wTime := none

namespace Config

/-- FREE VALUE: the parameter set of the chip (R7), used where no start-up move names one. -/
opaque params : Params

/-- FREE VALUE: does the transport open and take its configuration (R150 step 3, R151)? -/
opaque transportOpens : Nat → Bool

/-- FREE VALUE: what the transport's receive buffer holds at start-up (R24 item 2, U15). -/
opaque rxAtStartUp : Nat → List Byte

/-- FREE VALUE: how long a blocking call or a wait for a guard takes (R125, U17), in ms. -/
opaque freeWait : Nat → Nat

/-- FREE VALUE: after how many bytes the transport ends a `ReadBytes` burst (R34, U8). -/
opaque freeBurst : Nat → Nat

/-- FREE VALUES: what the transient registers hold between ticks (R21: undefined). -/
opaque deadSB : Nat → Option Byte
opaque deadRXB : Nat → List Byte
opaque deadFRM : Nat → Frame
opaque deadT0 : Nat → Nat
opaque deadREQ : Nat → DeviceState
opaque deadTXB : Nat → List Byte
opaque deadEL : Nat → Nat

end Config
end Sys2Proof
end

