-- ==== Sys2Proof/Syntax.lean ====
section
/-! DEFINITION. The instructions of FCBA: the command map (spec/30_encoding.md R53), the rejected
encodings (R58) and the operations (spec/00_scope.md R3), one constructor per row of
spec/opcode_table.json. -/
namespace Sys2Proof

/-- One constructor per row of the table. A frame row carries the bytes the row leaves free (its
addresses and markers are parameters, its checksum is determined by R52); a reject row carries the
bytes that were rejected; an operation row carries the arguments of its signature (R60). -/
inductive Instr
  /-- R53 row 1: a frame addressed to `ADDR_MARKER`. -/
  | opportunity (source command : Byte) (data : Data)
  /-- R53 row 2: the unit reports temperature, fan speed and power. -/
  | status52 (data : Data)
  /-- R53 row 3: the unit reports its mode. -/
  | mode53 (data : Data)
  /-- R53 row 4: status addresses, a command FCBA does not interpret. -/
  | statusOther (command : Byte) (data : Data)
  /-- R53 row 5: a valid frame that matches no row above. -/
  | unaddressed (source destination command : Byte) (data : Data)
  /-- R53 row 6, transmit: `data[2]`, `data[3]` and `data[4]` of the command frame (R56). -/
  | set (fanTemp modeRaw powerRaw : Byte)
  /-- R58: a first byte that is not `START`. -/
  | rejectNotStart (b : Byte)
  /-- R58: fewer than 13 bytes after a start marker. -/
  | rejectTruncated (received : List Byte)
  /-- R58: a body whose terminator is not `END`. -/
  | rejectInvalidEnd (raw : List Byte)
  /-- R58: a body with a good terminator and a bad checksum. -/
  | rejectChecksum (raw : List Byte)
  /-- R70. -/
  | checksum (bytes : List Byte)
  /-- R71. -/
  | decodeStatusFrame (raw : List Byte)
  /-- R88. -/
  | interpretStatusFrame (frame : Frame) (prior : DeviceState)
  /-- R74: the part of R88 that command `0x53` selects. -/
  | interpretCmd53 (data : Data) (prior : DeviceState)
  /-- R75: the part of R88 that command `0x52` selects. -/
  | interpretCmd52 (data : Data) (prior : DeviceState)
  /-- R80: the part of R88 that every other command selects. -/
  | interpretOther (command : Byte) (data : Data) (prior : DeviceState)
  /-- R81. -/
  | encodeCommandFrame (desired : DeviceState)
  /-- R90. -/
  | snapshot
  /-- R91: the only mutator FCBA ever passes is the interpretation of a frame, so it is named by the frame. -/
  | applyUpdate (frame : Frame)
  /-- R92. -/
  | enqueue (desired : DeviceState)
  /-- R93. -/
  | tryDequeue
  /-- R94. -/
  | nonEmpty
  /-- R95. -/
  | getStatus
  /-- R96. -/
  | requestChange (desired : DeviceState)
  /-- R100. -/
  | tick
  /-- R33; the timeout in ms. -/
  | readByte (timeout : Nat)
  /-- R34; the count and the timeout in ms. -/
  | readBytes (count timeout : Nat)
  /-- R35. -/
  | writeBytes (buffer : List Byte)
  /-- R36; the timeout in ms. -/
  | waitSendComplete (timeout : Nat)
  deriving DecidableEq, Repr, Inhabited

end Sys2Proof
end

