-- ==== Sys2Proof/Decode.lean ====
section
/-! DEFINITION. Frames to instructions and back: the checksum (R70), `DecodeStatusFrame` (R71 to R73), the
command map (spec/30_encoding.md R53, R58) as a total decoder, and the encoder, written from the same
format (R50, R56). -/
namespace Sys2Proof

/-! ## Literals of the wire format (R6) -/

/-- `BODY_LEN`: the bytes read after the start marker. -/
def bodyLen : Nat := 13
/-- `WIRE_LEN`: the bytes of a whole frame (conflict C1). -/
def wireLen : Nat := 14
/-- `CHK_SPAN`: the bytes the checksum covers. -/
def chkSpan : Nat := 11
/-- `CMD_STATUS`. -/
def cmdStatus : Byte := 0x52
/-- `CMD_MODE`. -/
def cmdMode : Byte := 0x53

/-! ## Checksum and body decoding -/

/-- R70: `XOR(b[0..11])`; later bytes are not read. -/
def checksum (b : List Byte) : Byte := xorAll (b.take chkSpan)

/-- The two `DecodeError` values (R60). -/
inductive DecodeError
  | invalidEnd | checksumMismatch
  deriving DecidableEq, Repr, Inhabited

/-- `Result<Frame, DecodeError>` (R60). -/
inductive DecodeResult
  | ok (f : Frame)
  | err (e : DecodeError)
  deriving DecidableEq, Repr, Inhabited

/-- The fields of a body at the indices of R51. -/
def frameOfBody (raw : List Byte) : Frame where
  source := byteAt raw 0
  destination := byteAt raw 1
  command := byteAt raw 2
  data :=
    { d0 := byteAt raw 3, d1 := byteAt raw 4, d2 := byteAt raw 5, d3 := byteAt raw 6
      d4 := byteAt raw 7, d5 := byteAt raw 8, d6 := byteAt raw 9, d7 := byteAt raw 10 }
  checksum := byteAt raw 11

/-- R71, R72: the terminator is tested first, then the checksum; nothing else is (R73). Its domain is
13-byte bodies (D26). -/
def decodeStatusFrame (p : Params) (raw : List Byte) : DecodeResult :=
  if byteAt raw 12 ≠ p.endMark then .err .invalidEnd
  else if byteAt raw 11 ≠ checksum raw then .err .checksumMismatch
  else .ok (frameOfBody raw)

/-! ## The command map -/

/-- R107: an opportunity, by the destination alone. -/
def isOpportunity (p : Params) (f : Frame) : Bool := f.destination == p.addrMarker

/-- R118: a status frame, by both addresses. -/
def isStatus (p : Params) (f : Frame) : Bool :=
  f.source == p.addrUnit && f.destination == p.addrRemote

/-- R53, receive rows in the table's order: the first row that a valid frame matches. A frame that is
both an opportunity and a status frame (R119) is named by row 1, which keeps its source, command and
data. -/
def rowOfFrame (p : Params) (f : Frame) : Instr :=
  if isOpportunity p f then .opportunity f.source f.command f.data
  else if isStatus p f then
    if f.command = cmdStatus then .status52 f.data
    else if f.command = cmdMode then .mode53 f.data
    else .statusOther f.command f.data
  else .unaddressed f.source f.destination f.command f.data

/-- The row of a full 13-byte body: a frame row or one of the two body rejections (R58). -/
def rowOfBody (p : Params) (raw : List Byte) : Instr :=
  match decodeStatusFrame p raw with
  | .ok f => rowOfFrame p f
  | .err .invalidEnd => .rejectInvalidEnd raw
  | .err .checksumMismatch => .rejectChecksum raw

/-- Why there is no instruction in a byte sequence: there is no byte (`TransportTimeout`, R102). -/
inductive DecodeReject
  | nothingReceived
  deriving DecidableEq, Repr, Inhabited

/-- What a decoder answers: the instruction with the bytes it leaves, or a rejection by name. -/
inductive Decoded
  | instr (i : Instr) (rest : List Byte)
  | reject (r : DecodeReject)
  deriving DecidableEq, Repr, Inhabited

/-- RECEIVE. The instruction at the head of a byte stream that then falls silent (R39, R59): one byte,
and if it is `START` the next 13. Total: every stream with a byte in it has a row, a rejected encoding
its own (R58). -/
def decode (p : Params) : List Byte → Decoded
  | [] => .reject .nothingReceived
  | b :: rest =>
    if b ≠ p.startMark then .instr (.rejectNotStart b) rest
    else if rest.length < bodyLen then .instr (.rejectTruncated rest) []
    else .instr (rowOfBody p (rest.take bodyLen)) (rest.drop bodyLen)

/-! ## The encoder -/

/-- A valid wire frame: `FRAME src dst cmd d0 ... d7` of R61, its checksum by R52. -/
def wireFrame (p : Params) (source destination command : Byte) (d : Data) : List Byte :=
  let covered := [source, destination, command] ++ d.toList
  [p.startMark] ++ covered ++ [checksum covered, p.endMark]

/-- R56: the data bytes of a command frame. -/
def setData (p : Params) (fanTemp modeRaw powerRaw : Byte) : Data :=
  { d0 := p.kSwingOff, d1 := p.kByte1, d2 := fanTemp, d3 := modeRaw, d4 := powerRaw, d5 := 0, d6 := 0, d7 := 0 }

/-- R53 row 6: the wire frame of a `SET`. -/
def setFrame (p : Params) (fanTemp modeRaw powerRaw : Byte) : List Byte :=
  wireFrame p p.addrRemote p.addrUnit p.cmdSet (setData p fanTemp modeRaw powerRaw)

/-- The bytes of an instruction on the wire; an operation row has no bit pattern. -/
def encode (p : Params) : Instr → Option (List Byte)
  | .opportunity source command data => some (wireFrame p source p.addrMarker command data)
  | .status52 data => some (wireFrame p p.addrUnit p.addrRemote cmdStatus data)
  | .mode53 data => some (wireFrame p p.addrUnit p.addrRemote cmdMode data)
  | .statusOther command data => some (wireFrame p p.addrUnit p.addrRemote command data)
  | .unaddressed source destination command data => some (wireFrame p source destination command data)
  | .set fanTemp modeRaw powerRaw => some (setFrame p fanTemp modeRaw powerRaw)
  | .rejectNotStart b => some [b]
  | .rejectTruncated received => some (p.startMark :: received)
  | .rejectInvalidEnd raw => some (p.startMark :: raw)
  | .rejectChecksum raw => some (p.startMark :: raw)
  | .checksum _ => none
  | .decodeStatusFrame _ => none
  | .interpretStatusFrame _ _ => none
  | .interpretCmd53 _ _ => none
  | .interpretCmd52 _ _ => none
  | .interpretOther _ _ _ => none
  | .encodeCommandFrame _ => none
  | .snapshot => none
  | .applyUpdate _ => none
  | .enqueue _ => none
  | .tryDequeue => none
  | .nonEmpty => none
  | .getStatus => none
  | .requestChange _ => none
  | .tick => none
  | .readByte _ => none
  | .readBytes _ _ => none
  | .writeBytes _ => none
  | .waitSendComplete _ => none

/-- TRANSMIT. The `SET` frame that 14 bytes handed to the transport are, if they are one: every byte
that R56 fixes is tested by encoding again. -/
def decodeSent (p : Params) (w : List Byte) : Option Instr :=
  if setFrame p (byteAt w 6) (byteAt w 7) (byteAt w 8) = w then
    some (.set (byteAt w 6) (byteAt w 7) (byteAt w 8))
  else none

/-! ## Words numbered as spec/opcode_table.json numbers them -/

/-- `n` bytes of `w`, bits 7 to 0 first: the first byte of the table's row is the least significant. -/
def bytesOfWord : Nat → Nat → List Byte
  | 0, _ => []
  | n + 1, w => BitVec.ofNat 8 w :: bytesOfWord n (w / 256)

/-- The received stream a table word stands for: a row of 13 bytes (format `B13`) is a body, whose start
marker step 1 has consumed (R51); every other row is the stream itself, as many bytes as the row has
and then silence (R59: there are no operand words to fill up with zeros; log entry 12). -/
def streamOfWord (p : Params) (nbits w : Nat) : List Byte :=
  if nbits / 8 = bodyLen then p.startMark :: bytesOfWord bodyLen w else bytesOfWord (nbits / 8) w

/-- The instruction of a table word under a parameter set. A word that is FCBA's own `SET` frame is the
transmit row; every other word is decoded as received. -/
def decodeWordWith (p : Params) (nbits w : Nat) : Option Instr :=
  match decodeSent p (bytesOfWord (nbits / 8) w) with
  | some i => some i
  | none =>
    match decode p (streamOfWord p nbits w) with
    | .instr i _ => some i
    | .reject _ => none

/-- The instruction of a table word, read under instantiation T (`match_T` of the table). -/
def decodeTableWord (nbits w : Nat) : Option Instr := decodeWordWith Params.instT nbits w

end Sys2Proof
end

