-- ==== Sys2Proof/Machine/State.lean ====
section
/-! DEFINITION. The state of FCBA (spec/10_state.md) with the part of its surroundings a step reads or
writes: the transport's receive buffer, the clock, the agents' schedule and the output traces. Plain data. -/
namespace Sys2Proof.Machine

/-- The agents that take steps on the shared structures (R142). A caller has no identifier in the spec;
the number only tells the model's callers apart. -/
inductive Agent
  | worker
  | caller (n : Nat)
  | lifecycle
  | bus
  deriving DecidableEq, Repr, Inhabited

/-- R25: the four lifecycle states. -/
inductive Lifecycle
  | uninit | running | initFailed | stopped
  deriving DecidableEq, Repr, Inhabited

/-- R20: the Bus Worker's control state, twelve values. -/
inductive Phase
  | idle | poll | body | decode | classify
  | oppPop | oppEncode | oppCheck | oppSettle | oppWrite | oppWait
  | statusApply
  deriving DecidableEq, Repr, Inhabited

/-- R22: the four changed reports. -/
structure Changed where
  power : Bool
  mode  : Bool
  fan   : Bool
  temp  : Bool
  deriving DecidableEq, Repr, Inhabited

/-- R131: the entries of the event stream, codes 1 to 4 of R130 and the `Changed` reports. -/
inductive Event
  | truncatedFrame (received : Nat)
  | invalidTerminator (raw : List Byte)
  | checksumMismatch (raw : List Byte)
  | sendWindowMissed (request : DeviceState) (elapsed : Nat)
  | changedPower (old new : Power)
  | changedMode (old new : Mode)
  | changedFan (old new : FanSpeed)
  | changedTemp (old new : Byte)
  deriving DecidableEq, Repr, Inhabited

/-- The value an operation returns (R60). -/
inductive Answer
  | unit
  | byte (b : Byte)
  | optByte (b : Option Byte)
  | bytes (b : List Byte)
  | decoded (r : DecodeResult)
  | update (new : DeviceState) (chg : Changed)
  | state (s : DeviceState)
  | optState (s : Option DeviceState)
  | bool (b : Bool)
  deriving DecidableEq, Repr, Inhabited

/-- R141: the configuration handed to the transport. -/
structure UartConfig where
  baud        : Nat
  dataBits    : Nat
  evenParity  : Bool
  stopBits    : Nat
  halfDuplex  : Bool
  interByteMs : Nat
  deriving DecidableEq, Repr, Inhabited

/-- R137: the calls an external caller may make; it has no other move on the block. -/
inductive Call
  | getStatus
  | requestChange (desired : DeviceState)
  | checksum (bytes : List Byte)
  | decodeStatusFrame (raw : List Byte)
  | interpretStatusFrame (frame : Frame) (prior : DeviceState)
  | encodeCommandFrame (desired : DeviceState)
  deriving DecidableEq, Repr, Inhabited

/-- One move of one agent (R142, R168): what `step` may be asked to do next. -/
inductive Move
  /-- The Bus Worker takes one edge of the phase table (R121). -/
  | worker
  /-- The Bus Worker runs one whole tick with nobody in between (R100). -/
  | tick
  /-- Caller `n` makes a call, which takes effect at this instant (R41). -/
  | call (n : Nat) (c : Call)
  /-- Caller `n` takes the guard of the store and is inside `GetStatus` (R40, R95). -/
  | enterStatus (n : Nat)
  /-- Caller `n` takes the guard of the queue and is inside `RequestChange` (R40, R96). -/
  | enterRequest (n : Nat) (desired : DeviceState)
  /-- The caller inside `GetStatus`, if there is one, finishes its copy and frees the guard. -/
  | leaveStatus
  /-- The caller inside `RequestChange`, if there is one, finishes its copy and frees the guard. -/
  | leaveRequest
  /-- The bus delivers bytes to the transport (R142 agent 3). -/
  | deliver (bytes : List Byte)
  /-- The transport loses `count` waiting bytes from position `at` on (U15). -/
  | lose (at_ count : Nat)
  /-- Time passes (R123, R138). -/
  | elapse (ms : Nat)
  /-- Start-up with a parameter set, the outcome of opening the transport and what its receive buffer
  holds then (R150, R151, U15). -/
  | startUp (p : Params) (opened : Bool) (rx : List Byte)
  /-- The lifecycle collaborator requests a shutdown (R155). -/
  | shutdown
  deriving DecidableEq, Repr, Inhabited

/-- R19, R20: the Bus Worker's registers. All but `phase` are transient: undefined between ticks (R21). -/
structure Worker where
  phase : Phase
  sb    : Option Byte
  rxb   : List Byte
  frm   : Frame
  t0    : Nat
  req   : DeviceState
  txb   : List Byte
  el    : Nat
  deriving DecidableEq, Repr, Inhabited

/-- R24 item 2: the transport as FCBA meets it. `config` is what it was opened with, `none` while it is
not open (R150, R155); `rx` the bytes that arrived and no read has returned, oldest first. -/
structure Transport where
  config : Option UartConfig
  rx     : List Byte
  deriving DecidableEq, Repr, Inhabited

/-- What the environment decides (R26, R125). `clock` is the time source in ms (R138). `waits` are the
durations of the next blocking calls and `bursts` the lengths at which the transport ends the next
`ReadBytes`; where a list has run out, the free value number `draws` is taken (the model's own counter).
`sched` is who moves next. -/
structure World where
  clock  : Nat
  waits  : List Nat
  bursts : List Nat
  draws  : Nat
  sched  : List Move
  deriving DecidableEq, Repr, Inhabited

/-- What can be observed from outside (R143), each trace oldest first and read by no rule: the buffers
given to `WriteBytes`, the event stream (R131), the values returned to whoever called an operation. -/
structure Trace where
  written : List (List Byte)
  events  : List Event
  replies : List (Agent × Answer)
  deriving DecidableEq, Repr, Inhabited

/-- The whole state. `ds` is the Device State Store (R15), `cq` the Command Queue (R17), head first.
`gDS` and `gCQ` are the guards (R24 item 1, R40): `none` when free, else the caller inside the guarded
operation, for `gCQ` with the state it is appending. `actor` (the model's own) is the agent whose
operation runs. -/
structure State where
  params      : Params
  lifecycle   : Lifecycle
  shutdownReq : Bool
  ds          : DeviceState
  gDS         : Option Nat
  cq          : List DeviceState
  gCQ         : Option (Nat × DeviceState)
  worker      : Worker
  transport   : Transport
  world       : World
  trace       : Trace
  actor       : Agent
  deriving DecidableEq, Repr, Inhabited

/-- Why the machine stops. -/
inductive Fault
  /-- Raised by every operation on shared state or the transport, and by every move of the worker or a
  caller, outside `Running`: the block has no step there (R151, U16 `stuck`). Raised by a start-up in
  `InitFailed`, which has no return (R136). Safe: nothing is claimed. -/
  | notRunning (l : Lifecycle)
  /-- Raised by `Tick` and by the frame and reject rows in the middle of a tick: ticks never overlap
  (R37, R100). No run raises it through `step` but a scheduled whole tick over an unfinished one. Safe. -/
  | tickOverlap
  /-- Raised by the worker in phase `oppPop` over an empty queue, which R110 excludes: no state that
  keeps the invariant raises it. Safe. -/
  | popFromEmpty
  deriving DecidableEq, Repr, Inhabited

/-- Why an instruction or a move has no meaning. -/
inductive Refusal
  /-- An instruction without a meaning in `exec`; raised by no arm of this model. Safe. -/
  | notModelled (mnemonic : String)
  /-- `Checksum` on fewer than 11 bytes (R70, U1 `refuse`). Safe. -/
  | checksumDomain
  /-- `DecodeStatusFrame` on a buffer that is not 13 bytes (R73, U2 `refuse`). Safe. -/
  | decodeDomain
  /-- A reject row or `InterpretStatusFrame.other` whose operands contradict the row (R53, R58): such a
  term is no instruction and no decoder gives it. Safe. -/
  | illFormed
  /-- Start-up with a parameter set that breaks R8: "outside this spec". Safe. -/
  | paramsOutsideSpec
  /-- Start-up while `Running`: R168 assumes that it happens once per run. Safe. -/
  | startUpWhileRunning
  deriving DecidableEq, Repr, Inhabited

/-- R27. The registers R27 calls undefined hold the values named here until the first tick ends
(DESIGN CHOICE, log entry 3); `params` is overwritten by start-up (PRESUMED, log entry 2). -/
def State.reset : State where
  params := Params.instT
  lifecycle := .uninit
  shutdownReq := false
  ds := DeviceState.initial
  gDS := none
  cq := []
  gCQ := none
  worker :=
    { phase := .idle
      sb := none
      rxb := []
      frm :=
        { source := 0, destination := 0, command := 0
          data := { d0 := 0, d1 := 0, d2 := 0, d3 := 0, d4 := 0, d5 := 0, d6 := 0, d7 := 0 }
          checksum := 0 }
      t0 := 0
      req := DeviceState.initial
      txb := []
      el := 0 }
  transport := { config := none, rx := [] }
  world := { clock := 0, waits := [], bursts := [], draws := 0, sched := [] }
  trace := { written := [], events := [], replies := [] }
  actor := .lifecycle

end Sys2Proof.Machine
end

