-- ==== Sys2Proof/Machine/Operands.lean ====
section
/-! DEFINITION. How a field is taken out of a received frame and assembled into a transmitted one
(spec/30_encoding.md R54 to R57), and the internal encoding of the store (R16). -/
namespace Sys2Proof.Machine

/-! ## Literals of the fields (R6) -/

/-- `TEMP_MASK`. -/
def tempMask : Byte := 0x1F
/-- `TEMP_OFFSET`. -/
def tempOffset : Nat := 9
/-- `POWER_BIT`. -/
def powerBit : Byte := 0x80
/-- `FAN_MASK`. -/
def fanMask : Byte := 0x0F
/-- `FAN_CODE_MIN`. -/
def fanCodeMin : Byte := 0x0A
/-- `FAN_CODE_MID`. -/
def fanCodeMid : Byte := 0x0C
/-- `FAN_CODE_MAX`. -/
def fanCodeMax : Byte := 0x0D

/-! ## Receive: command 0x52 (R54) and command 0x53 (R55) -/

/-- R76: computed as a natural number, 9 to 40. -/
def temperatureOf (d0 : Byte) : Byte := BitVec.ofNat 8 ((d0 &&& tempMask).toNat + tempOffset)

/-- R77. -/
def powerOf (d4 : Byte) : Power := if d4 &&& powerBit ≠ 0 then .on else .off

/-- R78. -/
def fanOf (d3 : Byte) : FanSpeed :=
  let c := d3 &&& fanMask
  if c = fanCodeMin then .min
  else if c = fanCodeMid then .mid
  else if c = fanCodeMax then .max
  else .auto

/-- R55, R74: the mode a raw value names (`MODE_RAW_MAX` = 4), `none` for 5 to 255. -/
def modeOf (v : Byte) : Option Mode :=
  match v.toNat with
  | 0 => some .auto
  | 1 => some .cool
  | 2 => some .dry
  | 3 => some .fan
  | 4 => some .heat
  | _ => none

/-! ## Transmit: the SET frame (R56) -/

/-- R83: the literal 8-bit OR, whatever the temperature (D5). -/
def fanTempOf (p : Params) (s : DeviceState) : Byte := p.fanBits.of s.fanSpeed ||| s.temperature

/-- R81 to R85: 14 bytes, `Unknown` fields included (D3). -/
def encodeCommandFrame (p : Params) (s : DeviceState) : List Byte :=
  let w1to11 : List Byte :=
    [p.addrRemote, p.addrUnit, p.cmdSet, p.kSwingOff, p.kByte1,
      fanTempOf p s, p.modeRaw.of s.mode, p.powerRaw.of s.power, 0x00, 0x00, 0x00]
  p.startMark :: w1to11 ++ [checksum w1to11, p.endMark]

/-! ## The store's internal encoding (R16, D9): the index of the variant in declaration order -/

def powerBits : Power → BitVec 2
  | .unknown => 0
  | .on => 1
  | .off => 2

def modeBits : Mode → BitVec 3
  | .unknown => 0
  | .auto => 1
  | .cool => 2
  | .dry => 3
  | .fan => 4
  | .heat => 5

def fanSpeedBits : FanSpeed → BitVec 3
  | .unknown => 0
  | .auto => 1
  | .min => 2
  | .mid => 3
  | .max => 4

end Sys2Proof.Machine
end

