-- ==== Sys2Proof/Machine/Flags.lean ====
section
/-! DEFINITION. The changed reports (spec/10_state.md R22; spec/40_codec.md R74, R79, R80), the
interpretation of a status frame they belong to (R88), and the events they turn into (R131). -/
namespace Sys2Proof.Machine

/-- No report. -/
def Changed.none : Changed := { power := false, mode := false, fan := false, temp := false }

/-- R74: the new state and the reports of command `0x53`. -/
def interpret53 (d : Data) (prior : DeviceState) : DeviceState × Changed :=
  match modeOf d.d7 with
  | some m =>
    if m ≠ prior.mode then ({ prior with mode := m }, { Changed.none with mode := true })
    else (prior, Changed.none)
  | none => (prior, Changed.none)

/-- R75 to R79: the new state and the reports of command `0x52`. -/
def interpret52 (d : Data) (prior : DeviceState) : DeviceState × Changed :=
  let new : DeviceState :=
    { prior with power := powerOf d.d4, fanSpeed := fanOf d.d3, temperature := temperatureOf d.d0 }
  (new,
    { power := new.power != prior.power
      mode := false
      fan := new.fanSpeed != prior.fanSpeed
      temp := new.temperature != prior.temperature })

/-- R80: every other command. -/
def interpretOther (prior : DeviceState) : DeviceState × Changed := (prior, Changed.none)

/-- R88: dispatch on the command alone. -/
def interpretStatusFrame (f : Frame) (prior : DeviceState) : DeviceState × Changed :=
  if f.command = cmdMode then interpret53 f.data prior
  else if f.command = cmdStatus then interpret52 f.data prior
  else interpretOther prior

/-- R131: one `Changed` entry for each report that is true. Their order inside one tick is not
significant in the spec; the model's is power, mode, fan, temperature (DESIGN CHOICE, log entry 7). -/
def changedEvents (old new : DeviceState) (chg : Changed) : List Event :=
  (if chg.power then [Event.changedPower old.power new.power] else []) ++
  (if chg.mode then [Event.changedMode old.mode new.mode] else []) ++
  (if chg.fan then [Event.changedFan old.fanSpeed new.fanSpeed] else []) ++
  (if chg.temp then [Event.changedTemp old.temperature new.temperature] else [])

/-- R130: the conditions, `TransportTimeout` and `TransportInitFailure` among them, which leave no entry
in the event stream. -/
inductive Condition
  | transportTimeout | truncatedFrame | invalidTerminator | checksumMismatch | sendWindowMissed
  | transportInitFailure
  deriving DecidableEq, Repr, Inhabited

/-- R130: the numeric codes. -/
def Condition.code : Condition → Nat
  | .transportTimeout => 0
  | .truncatedFrame => 1
  | .invalidTerminator => 2
  | .checksumMismatch => 3
  | .sendWindowMissed => 4
  | .transportInitFailure => 5

/-- The condition an event records; a `Changed` report is none. -/
def Event.condition : Event → Option Condition
  | .truncatedFrame _ => some .truncatedFrame
  | .invalidTerminator _ => some .invalidTerminator
  | .checksumMismatch _ => some .checksumMismatch
  | .sendWindowMissed _ _ => some .sendWindowMissed
  | .changedPower _ _ => none
  | .changedMode _ _ => none
  | .changedFan _ _ => none
  | .changedTemp _ _ => none

end Sys2Proof.Machine
end

