-- ==== Sys2Proof/Machine/Ops.lean ====
section
/-! DEFINITION. The named operations every meaning is made of: what the environment decides (R125), the
transport calls (spec/20_memory.md section 3), the guards (R40), the store and the queue
(spec/41_store_queue.md), the event stream with `raise` (R131, R135), and the lifecycle
(spec/70_reset_and_hazards.md). -/
namespace Sys2Proof.Machine

/-! ## Literals -/

/-- `T_BUDGET`, in ms (R6): "preserve the constant rather than recomputing it". -/
def tBudget : Nat := 180

/-- R141: the configuration handed to the transport at start-up. -/
def uartConfig (p : Params) : UartConfig :=
  { baud := 2400, dataBits := 8, evenParity := true, stopBits := 1, halfDuplex := true, interByteMs := p.tInterbyte }

/-! ## Outcomes -/

abbrev Result := Host.Outcome State Fault Refusal

/-- The block has a step only while `Running` (R25, U16). -/
def whenRunning (s : State) (r : Result) : Result :=
  if s.lifecycle = .running then r else .fault (.notRunning s.lifecycle)

/-- A tick starts only from `Idle` (R21, R37: never concurrently with itself). -/
def whenBetweenTicks (s : State) (r : Result) : Result :=
  whenRunning s (if s.worker.phase = .idle then r else .fault .tickOverlap)

/-! ## What the environment decides -/

/-- The duration of the next blocking call: the next of `waits`, else a free value. -/
def nextWait (w : World) : Nat × World :=
  match w.waits with
  | d :: ds => (d, { w with waits := ds })
  | [] => (Config.freeWait w.draws, { w with draws := w.draws + 1 })

/-- The length at which the transport ends the next `ReadBytes`: the next of `bursts`, else a free value. -/
def nextBurst (w : World) : Nat × World :=
  match w.bursts with
  | n :: ns => (n, { w with bursts := ns })
  | [] => (Config.freeBurst w.draws, { w with draws := w.draws + 1 })

/-- Time passes. -/
def World.pass (w : World) (ms : Nat) : World := { w with clock := w.clock + ms }

/-- A call that blocks for at most `bound` (R37, R139). -/
def blockUpTo (bound : Nat) (s : State) : State :=
  { s with world := (nextWait s.world).2.pass (min (nextWait s.world).1 bound) }

/-- A wait the source bounds by no number (R43, U17). -/
def blockFreely (s : State) : State :=
  { s with world := (nextWait s.world).2.pass (nextWait s.world).1 }

/-- `Delay(t)`: the worker does nothing for exactly `t` (R113, R139). -/
def delay (t : Nat) (s : State) : State := { s with world := s.world.pass t }

/-- `Now()` (R138). -/
def now (s : State) : Nat := s.world.clock

/-! ## Output -/

/-- `agent` moves. -/
def actAs (agent : Agent) (s : State) : State := { s with actor := agent }

/-- Append to the event stream without ending the tick (`emit`, spec/00_scope.md section 5.2). -/
def emit (es : List Event) (s : State) : State :=
  { s with trace := { s.trace with events := s.trace.events ++ es } }

/-- The running operation returns a value to the agent that called it. -/
def replyTo (agent : Agent) (a : Answer) (s : State) : State :=
  { s with trace := { s.trace with replies := s.trace.replies ++ [(agent, a)] } }

def reply (a : Answer) (s : State) : State := replyTo s.actor a s

/-! ## The end of a tick -/

/-- R21, R122: `phase <- Idle`, and every transient register is dead: it holds a free value. -/
def endTick (s : State) : State :=
  { s with
    worker :=
      { phase := .idle
        sb := Config.deadSB s.world.draws
        rxb := Config.deadRXB s.world.draws
        frm := Config.deadFRM s.world.draws
        t0 := Config.deadT0 s.world.draws
        req := Config.deadREQ s.world.draws
        txb := Config.deadTXB s.world.draws
        el := Config.deadEL s.world.draws }
    world := { s.world with draws := s.world.draws + 1 } }

/-- R115, R135: a closed gate discards `REQ` and `TXB` before step 5: they are dead and hold free values. -/
def discardRequest (s : State) : State :=
  { s with
    worker :=
      { s.worker with
        req := Config.deadREQ s.world.draws
        txb := Config.deadTXB s.world.draws }
    world := { s.world with draws := s.world.draws + 1 } }

/-- `raise E(info)`, the one way a condition of codes 1 to 3 is taken (R135; spec/00_scope.md section
5.2): the event is appended and the tick ends; nothing is saved, no mode changes, no handler runs, the
store and the queue keep their values. The return is the start of the next tick (R136). -/
def raise (e : Event) (s : State) : State := endTick (emit [e] s)

/-! ## The transport calls -/

/-- The transport's receive buffer becomes `rx`. -/
def setRx (rx : List Byte) (s : State) : State := { s with transport := { s.transport with rx := rx } }

/-- R33: the oldest byte not yet returned, consumed; `none` when none is there within `t`. -/
def readByte (t : Nat) (s : State) : Option Byte × State :=
  match s.transport.rx with
  | [] => (none, blockUpTo t s)
  | b :: rest => (some b, blockUpTo t (setRx rest s))

/-- R34: the next `k` bytes in arrival order, all consumed, `k` at most `n` and otherwise the
transport's choice. -/
def readBytes (n t : Nat) (s : State) : List Byte × State :=
  let s1 := blockUpTo t s
  let k := min n (nextBurst s1.world).1
  (s1.transport.rx.take k,
    setRx (s1.transport.rx.drop k) { s1 with world := (nextBurst s1.world).2 })

/-- R35. R37 counts this call among those that may block, but it has no timeout and no rule gives its
duration: in the model it takes no time (DESIGN CHOICE, log entry 31). -/
def writeBytes (buf : List Byte) (s : State) : State :=
  { s with trace := { s.trace with written := s.trace.written ++ [buf] } }

/-- R36: the caller cannot tell whether the transmission finished (U11). -/
def waitSendComplete (t : Nat) (s : State) : State := blockUpTo t s

/-! ## The guards

A caller holds a guard for the duration of a memory copy (R40). An agent that asks for a held guard
waits until it is free: the holder finishes its copy, its operation takes effect and returns, and then
the asking agent goes on. How long it waits is free (R43, U17): `tryDequeue` alone takes that time, which
the gate measures (R110); everywhere else the wait takes no time (DESIGN CHOICE, log entry 32). -/

/-- The caller inside `GetStatus`, if there is one, finishes its copy. -/
def settleDS (s : State) : State :=
  match s.gDS with
  | none => s
  | some n => replyTo (.caller n) (.state s.ds) { s with gDS := none }

/-- The caller inside `RequestChange`, if there is one, finishes its copy. -/
def settleCQ (s : State) : State :=
  match s.gCQ with
  | none => s
  | some (n, d) => replyTo (.caller n) .unit { s with gCQ := none, cq := s.cq ++ [d] }

/-! ## The store (R90, R91) and the queue (R92 to R94), each under its guard -/

def setStore (d : DeviceState) (s : State) : State := { s with ds := d }

def setQueue (q : List DeviceState) (s : State) : State := { s with cq := q }

/-- R90. The wait for the guard and the copy take no time (log entry 32). -/
def snapshot (s : State) : DeviceState × State := ((settleDS s).ds, settleDS s)

/-- R91, with the mutator R118 passes. The wait for the guard and the update take no time (DESIGN CHOICE,
log entry 32). -/
def applyUpdate (f : Frame) (s : State) : State :=
  setStore (interpretStatusFrame f (settleDS s).ds).1 (settleDS s)

/-- R92: appends at the tail; no deduplication, no validation. The wait for the guard takes no time (log
entry 32). -/
def enqueue (d : DeviceState) (s : State) : State :=
  setQueue ((settleCQ s).cq ++ [d]) (settleCQ s)

/-- R93; the call may wait for the guard (R110). -/
def tryDequeue (s : State) : Option DeviceState × State :=
  let s1 := blockFreely (settleCQ s)
  match s1.cq with
  | [] => (none, s1)
  | d :: ds => (some d, setQueue ds s1)

/-- R94. R109 says that the test takes time, and gives no number: the wait for the guard and the test take
no time here (DESIGN CHOICE, log entry 32). -/
def nonEmpty (s : State) : Bool × State := (!(settleCQ s).cq.isEmpty, settleCQ s)

/-! ## Steps 4 and 5 of a tick, uninterrupted (R100) -/

/-- R107 to R117: the opportunity test, the queue test, the timestamp, the pop, the encode, the gate and
the transmission. Before `T0` no time passes (log entry 32). -/
def opportunityStep (f : Frame) (s : State) : State :=
  if isOpportunity s.params f then
    if (nonEmpty s).1 then
      let s1 := (nonEmpty s).2
      let t0 := now s1
      match tryDequeue s1 with
      | (none, s2) => s2
      | (some req, s2) =>
        let txb := encodeCommandFrame s2.params req
        let el := now s2 - t0
        if el ≤ tBudget then waitSendComplete s2.params.tTxWait (writeBytes txb (delay s2.params.tSettle s2))
        else discardRequest (emit [.sendWindowMissed req el] s2)
    else (nonEmpty s).2
  else s

/-- R118 without its test: the store is updated and the true reports are emitted. -/
def statusUpdate (f : Frame) (s : State) : State :=
  let r := interpretStatusFrame f s.ds
  emit (changedEvents s.ds r.1 r.2) (applyUpdate f s)

/-- R118. -/
def statusStep (f : Frame) (s : State) : State :=
  if isStatus s.params f then statusUpdate f s else s

/-- R106, R119: both classifications of one decoded frame, step 4 first, and the end of the tick. -/
def classified (f : Frame) (s : State) : State := endTick (statusStep f (opportunityStep f s))

/-! ## Lifecycle -/

/-- R150 to R153, R156: the start-up sequence. Every register takes its reset value (R27); the
transient ones are undefined. The traces belong to the observer and the clock, the schedule and the
draws to the environment: they go on. -/
def startUp (p : Params) (opened : Bool) (rx : List Byte) (s : State) : State :=
  let s1 := endTick s
  { s1 with
    params := p
    lifecycle := if opened then .running else .initFailed
    shutdownReq := false
    ds := DeviceState.initial
    gDS := none
    cq := []
    gCQ := none
    transport := { config := if opened then some (uartConfig p) else none, rx := rx }
    actor := .lifecycle }

/-- R155: the worker stops between ticks, the transport is released, the state and what is still queued
are lost. A caller inside a guarded copy returns first (log entry 10). -/
def stop (s : State) : State :=
  let s1 := settleCQ (settleDS s)
  { s1 with
    lifecycle := .stopped
    shutdownReq := false
    ds := DeviceState.initial
    cq := []
    transport := { s1.transport with config := none } }

end Sys2Proof.Machine
end

