-- ==== Sys2Proof/Machine/Codec.lean ====
section
/-! DEFINITION. The meanings of the Frame Codec's operations (spec/40_codec.md): pure, callable by anyone
(R137), so that all they do to the state is to return their value (R89). -/
namespace Sys2Proof.Machine

/-- R70; a buffer shorter than 11 bytes is outside the domain (U1). -/
def execChecksum (bytes : List Byte) (s : State) : Result :=
  if chkSpan ≤ bytes.length then .next (reply (.byte (checksum bytes)) s) else .refused .checksumDomain

/-- R71 to R73; a buffer that is not 13 bytes is outside the domain (U2). -/
def execDecodeStatusFrame (raw : List Byte) (s : State) : Result :=
  if raw.length = bodyLen then .next (reply (.decoded (decodeStatusFrame s.params raw)) s)
  else .refused .decodeDomain

/-- R88. -/
def execInterpretStatusFrame (frame : Frame) (prior : DeviceState) (s : State) : Result :=
  let r := interpretStatusFrame frame prior
  .next (reply (.update r.1 r.2) s)

/-- R74. -/
def execInterpretCmd53 (data : Data) (prior : DeviceState) (s : State) : Result :=
  let r := interpret53 data prior
  .next (reply (.update r.1 r.2) s)

/-- R75 to R79. -/
def execInterpretCmd52 (data : Data) (prior : DeviceState) (s : State) : Result :=
  let r := interpret52 data prior
  .next (reply (.update r.1 r.2) s)

/-- R80: for every command but `0x52` and `0x53`. -/
def execInterpretOther (command : Byte) (_data : Data) (prior : DeviceState) (s : State) : Result :=
  if command = cmdStatus ∨ command = cmdMode then .refused .illFormed
  else .next (reply (.update (interpretOther prior).1 (interpretOther prior).2) s)

/-- R81. -/
def execEncodeCommandFrame (desired : DeviceState) (s : State) : Result :=
  .next (reply (.bytes (encodeCommandFrame s.params desired)) s)

end Sys2Proof.Machine
end

