-- ==== Sys2Proof/Machine/Frames.lean ====
section
/-! DEFINITION. The meanings of the frame rows (spec/30_encoding.md R53) and of the rejected encodings
(R58): what the rest of a tick does that has taken these bytes from the transport. -/
namespace Sys2Proof.Machine

/-- The Frame record of a valid wire frame: its checksum is determined (R52). -/
def recordOf (source destination command : Byte) (d : Data) : Frame :=
  { source := source, destination := destination, command := command, data := d
    checksum := checksum ([source, destination, command] ++ d.toList) }

/-- Row 1: R107 to R117; step 5 runs for the same frame where its addresses match (R119). -/
def execOpportunity (source command : Byte) (data : Data) (s : State) : Result :=
  whenBetweenTicks s (.next (classified (recordOf source s.params.addrMarker command data) s))

/-- Row 2: R118 with R75 to R79; step 4 runs for the same frame where its destination matches (R119). -/
def execStatus52 (data : Data) (s : State) : Result :=
  whenBetweenTicks s (.next (classified (recordOf s.params.addrUnit s.params.addrRemote cmdStatus data) s))

/-- Row 3: R118 with R74. -/
def execMode53 (data : Data) (s : State) : Result :=
  whenBetweenTicks s (.next (classified (recordOf s.params.addrUnit s.params.addrRemote cmdMode data) s))

/-- Row 4: R118 with R80. -/
def execStatusOther (command : Byte) (data : Data) (s : State) : Result :=
  whenBetweenTicks s (.next (classified (recordOf s.params.addrUnit s.params.addrRemote command data) s))

/-- Row 5: R120. -/
def execUnaddressed (source destination command : Byte) (data : Data) (s : State) : Result :=
  whenBetweenTicks s (.next (classified (recordOf source destination command data) s))

/-- Row 6, transmit: the command frame is handed to the transport (R81, R114). -/
def execSet (fanTemp modeRaw powerRaw : Byte) (s : State) : Result :=
  whenRunning s (.next (writeBytes (setFrame s.params fanTemp modeRaw powerRaw) s))

/-- R102: the byte is discarded silently. -/
def execRejectNotStart (b : Byte) (s : State) : Result :=
  if b = s.params.startMark then .refused .illFormed
  else whenBetweenTicks s (.next (endTick s))

/-- R104. -/
def execRejectTruncated (received : List Byte) (s : State) : Result :=
  if bodyLen ≤ received.length then .refused .illFormed
  else whenBetweenTicks s (.next (raise (.truncatedFrame received.length) s))

/-- R105, `InvalidEnd`. -/
def execRejectInvalidEnd (raw : List Byte) (s : State) : Result :=
  if raw.length = bodyLen ∧ decodeStatusFrame s.params raw = .err .invalidEnd then
    whenBetweenTicks s (.next (raise (.invalidTerminator raw) s))
  else .refused .illFormed

/-- R105, `ChecksumMismatch`. -/
def execRejectChecksum (raw : List Byte) (s : State) : Result :=
  if raw.length = bodyLen ∧ decodeStatusFrame s.params raw = .err .checksumMismatch then
    whenBetweenTicks s (.next (raise (.checksumMismatch raw) s))
  else .refused .illFormed

end Sys2Proof.Machine
end

