-- ==== Sys2Proof/Machine/Store.lean ====
section
/-! DEFINITION. The meanings of the operations on the Device State Store and the Command Queue and of the
two host operations (spec/41_store_queue.md). -/
namespace Sys2Proof.Machine

/-- R90. -/
def execSnapshot (s : State) : Result :=
  whenRunning s (.next (reply (.state (snapshot s).1) (snapshot s).2))

/-- R91. -/
def execApplyUpdate (frame : Frame) (s : State) : Result :=
  whenRunning s (.next (reply .unit (applyUpdate frame s)))

/-- R92. -/
def execEnqueue (desired : DeviceState) (s : State) : Result :=
  whenRunning s (.next (reply .unit (enqueue desired s)))

/-- R93. -/
def execTryDequeue (s : State) : Result :=
  whenRunning s (.next (reply (.optState (tryDequeue s).1) (tryDequeue s).2))

/-- R94. -/
def execNonEmpty (s : State) : Result :=
  whenRunning s (.next (reply (.bool (nonEmpty s).1) (nonEmpty s).2))

/-- R95: `Snapshot()` and nothing else. -/
def execGetStatus (s : State) : Result :=
  whenRunning s (.next (reply (.state (snapshot s).1) (snapshot s).2))

/-- R96: `Enqueue(desiredState)` and nothing else. -/
def execRequestChange (desired : DeviceState) (s : State) : Result :=
  whenRunning s (.next (reply .unit (enqueue desired s)))

end Sys2Proof.Machine
end

