-- ==== Sys2Proof/Machine/Tick.lean ====
section
/-! DEFINITION. The Bus Worker (spec/42_bus_worker.md): the whole tick of R100 in one go, and the same
tick as the phase transitions of R121, one edge a step, between which other agents may move. -/
namespace Sys2Proof.Machine

/-- R104, R105, R106: what a tick does with the bytes it read after a start marker. R109 says that the
decode takes time, and gives no number: here it takes none (DESIGN CHOICE, log entry 32). -/
def withBody (raw : List Byte) (s : State) : State :=
  if raw.length < bodyLen then raise (.truncatedFrame raw.length) s
  else
    match decodeStatusFrame s.params raw with
    | .err .invalidEnd => raise (.invalidTerminator raw) s
    | .err .checksumMismatch => raise (.checksumMismatch raw) s
    | .ok f => classified f s

/-- R100: one tick, complete and uninterrupted. -/
def tickThrough (s : State) : State :=
  match readByte s.params.tPoll s with
  | (none, s1) => endTick s1
  | (some b, s1) =>
    if b ≠ s1.params.startMark then endTick s1
    else withBody (readBytes bodyLen s1.params.tBody s1).1 (readBytes bodyLen s1.params.tBody s1).2

/-- `Tick()`. -/
def execTick (s : State) : Result := whenBetweenTicks s (.next (tickThrough s))

/-- The bytes a tick takes from the transport (R101, R103), and the state after taking them. -/
def fetch (s : State) : List Byte × State :=
  match readByte s.params.tPoll s with
  | (none, s1) => ([], s1)
  | (some b, s1) =>
    if b ≠ s1.params.startMark then ([b], s1)
    else (b :: (readBytes bodyLen s1.params.tBody s1).1, (readBytes bodyLen s1.params.tBody s1).2)

/-- `phase <- P`. -/
def goTo (ph : Phase) (s : State) : State := { s with worker := { s.worker with phase := ph } }

/-- The edges of R121 that step 4 and the classification share: to `StatusApply` when the status test is
true, else to `Idle`. -/
def toStatusOrIdle (s : State) : State :=
  if isStatus s.params s.worker.frm then goTo .statusApply s else endTick s

/-- R121, row by row: the edge that leaves the present phase. `Idle` with a shutdown requested is R155. -/
def workerEdge (s : State) : Result :=
  match s.worker.phase with
  | .idle => if s.shutdownReq then .next (stop s) else .next (goTo .poll s)
  | .poll =>
    match readByte s.params.tPoll s with
    | (r, s1) =>
      let s2 := { s1 with worker := { s1.worker with sb := r } }
      if r = some s2.params.startMark then .next (goTo .body s2) else .next (endTick s2)
  | .body =>
    match readBytes bodyLen s.params.tBody s with
    | (raw, s1) =>
      let s2 := { s1 with worker := { s1.worker with rxb := raw } }
      if raw.length < bodyLen then .next (raise (.truncatedFrame raw.length) s2) else .next (goTo .decode s2)
  | .decode =>
    match decodeStatusFrame s.params s.worker.rxb with
    | .err .invalidEnd => .next (raise (.invalidTerminator s.worker.rxb) s)
    | .err .checksumMismatch => .next (raise (.checksumMismatch s.worker.rxb) s)
    | .ok f => .next (goTo .classify { s with worker := { s.worker with frm := f } })
  | .classify =>
    if isOpportunity s.params s.worker.frm then
      match nonEmpty s with
      | (true, s1) => .next (goTo .oppPop { s1 with worker := { s1.worker with t0 := now s1 } })
      | (false, s1) => .next (toStatusOrIdle s1)
    else .next (toStatusOrIdle s)
  | .oppPop =>
    match tryDequeue s with
    | (none, _) => .fault .popFromEmpty
    | (some d, s1) => .next (goTo .oppEncode { s1 with worker := { s1.worker with req := d } })
  | .oppEncode =>
    .next (goTo .oppCheck { s with worker := { s.worker with txb := encodeCommandFrame s.params s.worker.req } })
  | .oppCheck =>
    let el := now s - s.worker.t0
    let s1 := { s with worker := { s.worker with el := el } }
    if el ≤ tBudget then .next (goTo .oppSettle s1)
    else .next (toStatusOrIdle (discardRequest (emit [.sendWindowMissed s1.worker.req el] s1)))
  | .oppSettle => .next (goTo .oppWrite (delay s.params.tSettle s))
  | .oppWrite => .next (goTo .oppWait (writeBytes s.worker.txb s))
  | .oppWait => .next (toStatusOrIdle (waitSendComplete s.params.tTxWait s))
  | .statusApply => .next (endTick (statusUpdate s.worker.frm s))

end Sys2Proof.Machine
end

