-- ==== Sys2Proof/Machine/Transport.lean ====
section
/-! DEFINITION. The meanings of the four transport calls (spec/20_memory.md R33 to R36). -/
namespace Sys2Proof.Machine

/-- R33. -/
def execReadByte (timeout : Nat) (s : State) : Result :=
  whenRunning s (.next (reply (.optByte (readByte timeout s).1) (readByte timeout s).2))

/-- R34. -/
def execReadBytes (count timeout : Nat) (s : State) : Result :=
  whenRunning s (.next (reply (.bytes (readBytes count timeout s).1) (readBytes count timeout s).2))

/-- R35. -/
def execWriteBytes (buffer : List Byte) (s : State) : Result :=
  whenRunning s (.next (reply .unit (writeBytes buffer s)))

/-- R36. -/
def execWaitSendComplete (timeout : Nat) (s : State) : Result :=
  whenRunning s (.next (reply .unit (waitSendComplete timeout s)))

end Sys2Proof.Machine
end

