-- ==== Sys2Proof/Machine/Dispatch.lean ====
section
/-! DEFINITION. One arm per instruction. -/
namespace Sys2Proof.Machine

def exec (i : Instr) (s : State) : Host.Outcome State Fault Refusal :=
  match i with
  -- frame rows
  | .opportunity source command data => Sys2Proof.Machine.execOpportunity source command data s
  | .status52 data => Sys2Proof.Machine.execStatus52 data s
  | .mode53 data => Sys2Proof.Machine.execMode53 data s
  | .statusOther command data => Sys2Proof.Machine.execStatusOther command data s
  | .unaddressed source destination command data => Sys2Proof.Machine.execUnaddressed source destination command data s
  | .set fanTemp modeRaw powerRaw => Sys2Proof.Machine.execSet fanTemp modeRaw powerRaw s
  -- rejected encodings
  | .rejectNotStart b => Sys2Proof.Machine.execRejectNotStart b s
  | .rejectTruncated received => Sys2Proof.Machine.execRejectTruncated received s
  | .rejectInvalidEnd raw => Sys2Proof.Machine.execRejectInvalidEnd raw s
  | .rejectChecksum raw => Sys2Proof.Machine.execRejectChecksum raw s
  -- the Frame Codec
  | .checksum bytes => Sys2Proof.Machine.execChecksum bytes s
  | .decodeStatusFrame raw => Sys2Proof.Machine.execDecodeStatusFrame raw s
  | .interpretStatusFrame frame prior => Sys2Proof.Machine.execInterpretStatusFrame frame prior s
  | .interpretCmd53 data prior => Sys2Proof.Machine.execInterpretCmd53 data prior s
  | .interpretCmd52 data prior => Sys2Proof.Machine.execInterpretCmd52 data prior s
  | .interpretOther command data prior => Sys2Proof.Machine.execInterpretOther command data prior s
  | .encodeCommandFrame desired => Sys2Proof.Machine.execEncodeCommandFrame desired s
  -- the store, the queue and the host operations
  | .snapshot => Sys2Proof.Machine.execSnapshot s
  | .applyUpdate frame => Sys2Proof.Machine.execApplyUpdate frame s
  | .enqueue desired => Sys2Proof.Machine.execEnqueue desired s
  | .tryDequeue => Sys2Proof.Machine.execTryDequeue s
  | .nonEmpty => Sys2Proof.Machine.execNonEmpty s
  | .getStatus => Sys2Proof.Machine.execGetStatus s
  | .requestChange desired => Sys2Proof.Machine.execRequestChange desired s
  -- the Bus Worker and the transport calls
  | .tick => Sys2Proof.Machine.execTick s
  | .readByte timeout => Sys2Proof.Machine.execReadByte timeout s
  | .readBytes count timeout => Sys2Proof.Machine.execReadBytes count timeout s
  | .writeBytes buffer => Sys2Proof.Machine.execWriteBytes buffer s
  | .waitSendComplete timeout => Sys2Proof.Machine.execWaitSendComplete timeout s

end Sys2Proof.Machine
end

