-- ==== Sys2Proof/Machine/Moves.lean ====
section
/-! DEFINITION. What each move of each agent does (spec/60_exceptions.md R142, spec/70_reset_and_hazards.md
R168), who moves next, and how a word of spec/opcode_table.json is put where the machine takes its next
instruction. -/
namespace Sys2Proof.Machine

/-- The operation a caller's call is (R95, R96, R137). -/
def Call.instr : Call → Instr
  | .getStatus => .getStatus
  | .requestChange d => .requestChange d
  | .checksum b => .checksum b
  | .decodeStatusFrame raw => .decodeStatusFrame raw
  | .interpretStatusFrame f prior => .interpretStatusFrame f prior
  | .encodeCommandFrame d => .encodeCommandFrame d

/-- A caller is one thread of control: the call it is inside returns before it makes another, so that it
never holds both guards (R40). -/
def returnFirst (n : Nat) (s : State) : State :=
  let s1 := if s.gDS = some n then settleDS s else s
  if s1.gCQ.map (fun h => h.1) = some n then settleCQ s1 else s1

/-- Caller `n` takes the guard of the store, once it is free. -/
def enterStatus (n : Nat) (s : State) : State :=
  actAs (.caller n) { settleDS (returnFirst n s) with gDS := some n }

/-- Caller `n` takes the guard of the queue, once it is free. -/
def enterRequest (n : Nat) (d : DeviceState) (s : State) : State :=
  actAs (.caller n) { settleCQ (returnFirst n s) with gCQ := some (n, d) }

/-- The bytes of `rx` without `count` of them from position `at_` on. -/
def without (rx : List Byte) (at_ count : Nat) : List Byte := rx.take at_ ++ rx.drop (at_ + count)

/-- One move. A shutdown that was requested takes effect when the worker would start a tick (R155, D16).
`InitFailed` has no return (R136, R151): a start-up has no step there. -/
def performMove (m : Move) (s : State) : Result :=
  match m with
  | .worker => whenRunning s (workerEdge (actAs .worker s))
  | .tick =>
    if s.lifecycle = .running ∧ s.shutdownReq = true ∧ s.worker.phase = .idle then
      .next (stop (actAs .worker s))
    else exec .tick (actAs .worker s)
  | .call n c => exec c.instr (actAs (.caller n) (returnFirst n s))
  | .enterStatus n => whenRunning s (.next (enterStatus n s))
  | .enterRequest n d => whenRunning s (.next (enterRequest n d s))
  | .leaveStatus => whenRunning s (.next (settleDS s))
  | .leaveRequest => whenRunning s (.next (settleCQ s))
  | .deliver bytes => .next (setRx (s.transport.rx ++ bytes) (actAs .bus s))
  | .lose at_ count => .next (setRx (without s.transport.rx at_ count) (actAs .bus s))
  | .elapse ms => .next { s with world := s.world.pass ms }
  | .startUp p opened rx =>
    if s.lifecycle = .running then .refused .startUpWhileRunning
    else if s.lifecycle = .initFailed then .fault (.notRunning s.lifecycle)
    else if p.valid then .next (startUp p opened rx s)
    else .refused .paramsOutsideSpec
  | .shutdown => whenRunning s (.next (actAs .lifecycle { s with shutdownReq := true }))

/-- The parameter set that R8 makes of one: the fan patterns keep bits 7 to 5, the five known modes have
their raw values, and the timeouts are ordered. Every legal set is one that this gives. -/
def legalParams (p : Params) : Params :=
  let body := p.tPoll + 1 + p.tBody
  { p with
    fanBits :=
      { unknown := p.fanBits.unknown &&& 0xE0, auto := p.fanBits.auto &&& 0xE0
        min := p.fanBits.min &&& 0xE0, mid := p.fanBits.mid &&& 0xE0, max := p.fanBits.max &&& 0xE0 }
    modeRaw := { unknown := p.modeRaw.unknown, auto := 0, cool := 1, dry := 2, fan := 3, heat := 4 }
    tBody := body
    tTxWait := body + 1 + p.tTxWait }

/-- Who moves next: the head of the schedule. Where none is scheduled, the agents go on of themselves:
start-up while `Uninit`, with free values for what its collaborator hands over (the parameters a legal
set, R168); else a caller inside a guarded copy finishes it, for a guard is held for a bounded time and
every operation completes (R43); else the Bus Worker, which runs its loop indefinitely (R154). -/
def nextMove (s : State) : Move × State :=
  match s.world.sched with
  | m :: ms => (m, { s with world := { s.world with sched := ms } })
  | [] =>
    if s.lifecycle = .uninit then
      (.startUp (legalParams Config.params) (Config.transportOpens s.world.draws) (Config.rxAtStartUp s.world.draws),
        { s with world := { s.world with draws := s.world.draws + 1 } })
    else if s.gDS.isSome then (.leaveStatus, s)
    else if s.gCQ.isSome then (.leaveRequest, s)
    else (.worker, s)

/-- One step: the next agent makes its move. -/
def stepOnce (s : State) : Result := performMove (nextMove s).1 (nextMove s).2

/-- The machine running, between ticks, with the bytes of a table word waiting in the transport and a
whole tick scheduled next, which reads all of them in one burst. -/
def placeReceived (nbits w : Nat) (s : State) : State :=
  { s with
    lifecycle := .running
    shutdownReq := false
    worker := { s.worker with phase := .idle }
    transport := { config := some (uartConfig s.params), rx := streamOfWord s.params nbits w }
    world := { s.world with bursts := bodyLen :: s.world.bursts, sched := .tick :: s.world.sched } }

/-- The machine running, about to write: a `SET` word stands in `TXB`. -/
def placeSent (nbits w : Nat) (s : State) : State :=
  { s with
    lifecycle := .running
    worker := { s.worker with phase := .oppWrite, txb := bytesOfWord (nbits / 8) w }
    transport := { s.transport with config := some (uartConfig s.params) }
    world := { s.world with sched := .worker :: s.world.sched } }

/-- A table word where the machine takes its next instruction: the transmit row in `TXB`, every other
row in the transport's receive buffer (log entry 12). -/
def placeWord (nbits w : Nat) (s : State) : State :=
  match decodeSent s.params (bytesOfWord (nbits / 8) w) with
  | some _ => placeSent nbits w s
  | none => placeReceived nbits w s

end Sys2Proof.Machine
end

