-- ==== Sys2Proof/Machine/Step.lean ====
section
/-! DEFINITION. One step of the machine, and where a word of spec/opcode_table.json is placed for it. -/
namespace Sys2Proof.Machine

def step (s : State) : Host.Outcome State Fault Refusal := stepOnce s

def State.withFetchWord (s : State) (nbits w : Nat) : State := placeWord nbits w s

end Sys2Proof.Machine
end

