-- ==== Sys2Proof/WellFormed.lean ====
section
/-! DEFINITION. Which terms of `Instr` are instructions: the conditions spec/30_encoding.md R53, R58 and
spec/92_eei_decisions.md D26 put on the operands. -/
namespace Sys2Proof

/-- R53: the addresses of a row that comes after row 1 in the map do not match row 1. -/
def notMarker (p : Params) (destination : Byte) : Bool := destination != p.addrMarker

/-- `wf p i`: `i` is an instruction under the parameters `p`. A frame row is well formed when it is the
FIRST row of R53 that its frame matches, so that a frame has one name; a reject row when its bytes are
rejected for the row's reason (R58); an operation when its arguments are in the domain (D26). -/
def Instr.wf (p : Params) : Instr → Bool
  | .opportunity _ _ _ => true
  | .status52 _ => notMarker p p.addrRemote
  | .mode53 _ => notMarker p p.addrRemote
  | .statusOther command _ => notMarker p p.addrRemote && command != cmdStatus && command != cmdMode
  | .unaddressed source destination _ _ =>
    notMarker p destination && !(source == p.addrUnit && destination == p.addrRemote)
  | .set _ _ _ => true
  | .rejectNotStart b => b != p.startMark
  | .rejectTruncated received => decide (received.length < bodyLen)
  | .rejectInvalidEnd raw => raw.length == bodyLen && byteAt raw 12 != p.endMark
  | .rejectChecksum raw =>
    raw.length == bodyLen && byteAt raw 12 == p.endMark && byteAt raw 11 != Sys2Proof.checksum raw
  | .checksum bytes => decide (chkSpan ≤ bytes.length)
  | .decodeStatusFrame raw => raw.length == bodyLen
  | .interpretStatusFrame _ _ => true
  | .interpretCmd53 _ _ => true
  | .interpretCmd52 _ _ => true
  | .interpretOther command _ _ => command != cmdStatus && command != cmdMode
  | .encodeCommandFrame _ => true
  | .snapshot => true
  | .applyUpdate _ => true
  | .enqueue _ => true
  | .tryDequeue => true
  | .nonEmpty => true
  | .getStatus => true
  | .requestChange _ => true
  | .tick => true
  | .readByte _ => true
  | .readBytes _ _ => true
  | .writeBytes _ => true
  | .waitSendComplete _ => true

end Sys2Proof
end

