-- ==== Sys2Proof/Safety.lean ====
section
/-! DEFINITION. The terms claims use: the invariant of FCBA, the phase table of R121, running a list of
operations, and what an operation leaves alone. -/
namespace Sys2Proof.Machine

/-! ## The phase table -/

/-- R121: every edge of the table, as (from, to). The last one is R155: the worker stops instead of
starting a tick and stays `Idle`. -/
def phaseEdges : List (Phase × Phase) :=
  [(.idle, .poll), (.poll, .idle), (.poll, .body), (.body, .idle), (.body, .decode),
    (.decode, .idle), (.decode, .classify),
    (.classify, .oppPop), (.classify, .statusApply), (.classify, .idle)] ++
  [(.oppPop, .oppEncode), (.oppEncode, .oppCheck), (.oppCheck, .oppSettle),
    (.oppCheck, .statusApply), (.oppCheck, .idle), (.oppSettle, .oppWrite), (.oppWrite, .oppWait),
    (.oppWait, .statusApply), (.oppWait, .idle), (.statusApply, .idle)]

/-- The place of a phase in the list of R20: a tick moves forward through it and returns to `Idle`. -/
def Phase.rank : Phase → Nat
  | .idle => 0
  | .poll => 1
  | .body => 2
  | .decode => 3
  | .classify => 4
  | .oppPop => 5
  | .oppEncode => 6
  | .oppCheck => 7
  | .oppSettle => 8
  | .oppWrite => 9
  | .oppWait => 10
  | .statusApply => 11

/-- The phases of step 4. -/
def Phase.inStep4 (ph : Phase) : Bool := decide (5 ≤ ph.rank) && decide (ph.rank ≤ 10)

/-! ## The invariant -/

/-- R14, R76, R153: power, fan speed and temperature are known together, and a known temperature is 9 to
40. -/
def StoreDecoded (d : DeviceState) : Prop :=
  (d.power = .unknown ∧ d.fanSpeed = .unknown ∧ d.temperature = 0) ∨
  (d.power ≠ .unknown ∧ d.fanSpeed ≠ .unknown ∧ 9 ≤ d.temperature.toNat ∧ d.temperature.toNat ≤ 40)

/-- What holds of every reachable state, phase by phase. -/
structure Inv (s : State) : Prop where
  /-- R150, R152: a running block has legal parameters and a transport opened with R141's configuration. -/
  running : s.lifecycle = .running →
    s.params.valid = true ∧ s.transport.config = some (uartConfig s.params)
  /-- R151, R155: a block that does not run holds no transport, no guard and no request and is between
  ticks. -/
  notRunning : s.lifecycle ≠ .running →
    s.transport.config = none ∧ s.gDS = none ∧ s.gCQ = none ∧ s.cq = [] ∧ s.worker.phase = .idle ∧
      s.ds = DeviceState.initial
  /-- R40: no caller is inside two operations, so none holds both guards. -/
  oneGuard : ∀ n d, s.gDS = some n → s.gCQ ≠ some (n, d)
  /-- R15: what the store can hold. -/
  store : StoreDecoded s.ds
  /-- R103: the decoder is only given whole bodies. -/
  wholeBody : s.worker.phase = .decode → s.worker.rxb.length = bodyLen
  /-- R107: step 4 runs on an opportunity only. -/
  onOpportunity : s.worker.phase.inStep4 = true → isOpportunity s.params s.worker.frm = true
  /-- R110: the pop finds an entry. -/
  popReady : s.worker.phase = .oppPop → s.cq ≠ []
  /-- R138: the timestamp is not in the future. -/
  stamped : s.worker.phase = .oppPop ∨ s.worker.phase = .oppEncode ∨ s.worker.phase = .oppCheck →
    s.worker.t0 ≤ s.world.clock
  /-- R111: what is about to be written is the encoding of the popped request. -/
  encoded : 7 ≤ s.worker.phase.rank ∧ s.worker.phase.rank ≤ 10 →
    s.worker.txb = encodeCommandFrame s.params s.worker.req
  /-- R112: nothing goes past a closed gate. -/
  gated : 8 ≤ s.worker.phase.rank ∧ s.worker.phase.rank ≤ 10 → s.worker.el ≤ tBudget
  /-- R118: the store is updated from status frames only. -/
  onStatus : s.worker.phase = .statusApply → isStatus s.params s.worker.frm = true

/-! ## Running operations one after another -/

/-- The operations of a list, in order, nothing in between. -/
def runAll : List Instr → State → Result
  | [], s => .next s
  | i :: is, s =>
    match exec i s with
    | .next t => runAll is t
    | .fault f => .fault f
    | .refused r => .refused r

/-- An operation on the queue: `some d` is `Enqueue(d)`, `none` is `TryDequeue()`. -/
def queueInstr : Option DeviceState → Instr
  | some d => .enqueue d
  | none => .tryDequeue

/-- The values returned in `Some`, in order. -/
def poppedIn (replies : List (Agent × Answer)) : List DeviceState :=
  replies.filterMap fun r =>
    match r.2 with
    | .optState o => o
    | _ => none

/-! ## What stays as it was -/

/-- The parameters, the lifecycle and the shutdown request are unchanged. -/
def SameControl (s t : State) : Prop :=
  t.params = s.params ∧ t.lifecycle = s.lifecycle ∧ t.shutdownReq = s.shutdownReq ∧ t.actor = s.actor

/-- The store and its guard are unchanged. -/
def SameStore (s t : State) : Prop := t.ds = s.ds ∧ t.gDS = s.gDS

/-- The queue and its guard are unchanged. -/
def SameQueue (s t : State) : Prop := t.cq = s.cq ∧ t.gCQ = s.gCQ

/-- All three output traces are unchanged. -/
def SameOutput (s t : State) : Prop := t.trace = s.trace

/-- Only time has passed in the environment, and draws were used: the schedule is unchanged and the clock
has not gone backwards. -/
def TimePassed (s t : State) : Prop := t.world.sched = s.world.sched ∧ s.world.clock ≤ t.world.clock

/-- The entry of the caller inside `RequestChange`, if there is one: it joins the queue before an
operation that waits for the guard goes on. -/
def waitingEntry (s : State) : List DeviceState := (s.gCQ.map fun h => h.2).toList

/-- The value delivered to the caller inside `RequestChange`, if there is one. -/
def waitingEntryReply (s : State) : List (Agent × Answer) :=
  (s.gCQ.map fun h => (Agent.caller h.1, Answer.unit)).toList

/-- The value delivered to the caller inside `GetStatus`, if there is one. -/
def waitingCopyReply (s : State) : List (Agent × Answer) :=
  (s.gDS.map fun n => (Agent.caller n, Answer.state s.ds)).toList

end Sys2Proof.Machine
end

