-- ==== Sys2Proof/Certificates/Slice0/Obligations.lean ====
section
/-! DEFINITION. The statements for the provers, in the order of the spec's files. What a statement reads
off `trace.replies`, `trace.written` and `actor` is recorded in fields of the model's own (log entry 24). -/

open Sys2Proof Sys2Proof.Machine

/-! ## Encoding -/

/-- Frames written out byte by byte from R50 to R56 under instantiation T (a sanity statement: fixed words).
The values of T are presumed: log entry 2; how a frame is named: log entry 21. -/
def Obligations.WrittenOutFramesDecode : Prop :=
  decode Params.instT [0x32, 0x20, 0x84, 0x52, 0x11, 0, 0, 0x0A, 0, 0, 0, 0, 0xED, 0x34] =
    .instr (.status52 ⟨0x11, 0, 0, 0x0A, 0, 0, 0, 0⟩) [] ∧
  decode Params.instT [0x32, 0x20, 0x84, 0x53, 0, 0, 0, 0, 0, 0, 0, 1, 0xF6, 0x34] =
    .instr (.mode53 ⟨0, 0, 0, 0, 0, 0, 0, 1⟩) [] ∧
  decode Params.instT [0x32, 0x84, 0xAD, 0x52, 0, 0, 0, 0, 0, 0, 0, 0, 0x7B, 0x34] =
    .instr (.opportunity 0x84 0x52 ⟨0, 0, 0, 0, 0, 0, 0, 0⟩) [] ∧
  decodeSent Params.instT [0x32, 0x84, 0x20, 0xA0, 0x1F, 0x18, 0xB8, 1, 0xF4, 0, 0, 0, 0x4E, 0x34] =
    some (.set 0xB8 1 0xF4) ∧
  decode Params.instT [0x34, 0x20] = .instr (.rejectNotStart 0x34) [0x20] ∧
  decode Params.instT [0x32, 0x20, 0x84, 0x52, 0x11] = .instr (.rejectTruncated [0x20, 0x84, 0x52, 0x11]) []

/-- R53, R58: the bytes of a well-formed received instruction decode to it, with every operand; a stream
that goes on after it keeps its rest (a truncated frame is one only when the stream falls silent). The
transmit row has its own decoder. A frame is named by the first row it matches: log entry 21. -/
def Obligations.DecodeOfEncodeIsTheInstruction : Prop :=
  ∀ (p : Params) (i : Instr) (w : List Byte), i.wf p = true → encode p i = some w →
    (∀ y m q, i = .set y m q → decodeSent p w = some i) ∧
    ((∀ y m q, i ≠ .set y m q) → decode p w = .instr i []) ∧
    ((∀ y m q, i ≠ .set y m q) → (∀ r, i ≠ .rejectTruncated r) →
      ∀ rest, decode p (w ++ rest) = .instr i rest)

/-- R53, R58, R59: every stream with a byte in it decodes; what it decodes to is well formed, and its
encoding is exactly the bytes that were taken. No byte is dropped and no encoding has two names. The name
is the first row that matches: log entry 21. -/
def Obligations.EncodeOfDecodeIsTheBytes : Prop :=
  ∀ (p : Params) (bytes : List Byte), bytes ≠ [] →
    ∃ i w rest, decode p bytes = .instr i rest ∧ i.wf p = true ∧ encode p i = some w ∧ bytes = w ++ rest

/-- R50, R59: every encoding but a truncated one and a discarded byte is 14 bytes long, and a `SET` frame
that is recognised is exactly its own encoding. That `SET` is named on transmit only: log entry 21. -/
def Obligations.FramesAreFourteenBytes : Prop :=
  (∀ (p : Params) (i : Instr) (w : List Byte), i.wf p = true → encode p i = some w →
    (∀ b, i ≠ .rejectNotStart b) → (∀ r, i ≠ .rejectTruncated r) → w.length = 14) ∧
  (∀ (p : Params) (w : List Byte) (i : Instr), decodeSent p w = some i → encode p i = some w)

/-! ## The Frame Codec -/

/-- R70: the result of `Checksum`; bytes from index 11 on are not read, and nothing else changes. -/
def Obligations.ChecksumIsXorOfElevenBytes : Prop :=
  ∀ (b0 b1 b2 b3 b4 b5 b6 b7 b8 b9 b10 : Byte) (rest : List Byte) (s : State),
    exec (.checksum ([b0, b1, b2, b3, b4, b5, b6, b7, b8, b9, b10] ++ rest)) s =
      .next (reply (.byte (b0 ^^^ b1 ^^^ b2 ^^^ b3 ^^^ b4 ^^^ b5 ^^^ b6 ^^^ b7 ^^^ b8 ^^^ b9 ^^^ b10)) s)

/-- R71, R72: the terminator first, then the checksum, then the five fields, each at its index. -/
def Obligations.DecodeStatusFrameResults : Prop :=
  ∀ (raw : List Byte) (s : State), raw.length = 13 →
    (byteAt raw 12 ≠ s.params.endMark →
      exec (.decodeStatusFrame raw) s = .next (reply (.decoded (.err .invalidEnd)) s)) ∧
    (byteAt raw 12 = s.params.endMark → byteAt raw 11 ≠ xorAll (raw.take 11) →
      exec (.decodeStatusFrame raw) s = .next (reply (.decoded (.err .checksumMismatch)) s)) ∧
    (byteAt raw 12 = s.params.endMark → byteAt raw 11 = xorAll (raw.take 11) →
      ∃ f, exec (.decodeStatusFrame raw) s = .next (reply (.decoded (.ok f)) s) ∧
        f.source = byteAt raw 0 ∧ f.destination = byteAt raw 1 ∧ f.command = byteAt raw 2 ∧
        f.data.toList = (raw.drop 3).take 8 ∧ f.checksum = byteAt raw 11)

/-- R73: whatever the eleven covered bytes are, exactly one body over them is accepted. -/
def Obligations.OneAcceptedBodyPerContent : Prop :=
  ∀ (p : Params) (b : List Byte), b.length = 11 →
    ∃ raw, (raw.length = 13 ∧ raw.take 11 = b ∧ ∃ f, decodeStatusFrame p raw = .ok f) ∧
      ∀ raw', raw'.length = 13 → raw'.take 11 = b → (∃ f, decodeStatusFrame p raw' = .ok f) → raw' = raw

/-- R87 item 3: one flipped bit is always noticed, and which error it gives; two flips at one bit position
in two covered bytes never are. -/
def Obligations.SingleBitSensitivity : Prop :=
  ∀ (p : Params) (raw : List Byte) (f : Frame), raw.length = 13 → decodeStatusFrame p raw = .ok f →
    (∀ i j, i < 12 → j < 8 →
      decodeStatusFrame p (raw.set i (byteAt raw i ^^^ BitVec.twoPow 8 j)) = .err .checksumMismatch) ∧
    (∀ j, j < 8 →
      decodeStatusFrame p (raw.set 12 (byteAt raw 12 ^^^ BitVec.twoPow 8 j)) = .err .invalidEnd) ∧
    (∀ i k j, i < 12 → k < 12 → i ≠ k → j < 8 →
      ∃ g, decodeStatusFrame p ((raw.set i (byteAt raw i ^^^ BitVec.twoPow 8 j)).set k
        (byteAt raw k ^^^ BitVec.twoPow 8 j)) = .ok g)

/-- R87 item 1: the checksum law survives decoding and laying the record out again. -/
def Obligations.ChecksumRoundTrip : Prop :=
  ∀ (p : Params) (raw : List Byte) (f : Frame), raw.length = 13 → decodeStatusFrame p raw = .ok f →
    checksum f.covered = f.checksum ∧ f.checksum = byteAt raw 11

/-- R74: the whole of command `0x53`, value by value. The raw values of the modes are D4 of the spec: log
entry 17. -/
def Obligations.ModeReport : Prop :=
  ∀ (d : Data) (prior : DeviceState) (s : State),
    ∃ new chg, exec (.interpretCmd53 d prior) s = .next (reply (.update new chg) s) ∧
      new.power = prior.power ∧ new.fanSpeed = prior.fanSpeed ∧ new.temperature = prior.temperature ∧
      chg.power = false ∧ chg.fan = false ∧ chg.temp = false ∧
      (∀ m, (d.d7.toNat, m) ∈ [(0, Mode.auto), (1, .cool), (2, .dry), (3, .fan), (4, .heat)] →
        new.mode = m ∧ (chg.mode = true ↔ m ≠ prior.mode)) ∧
      (5 ≤ d.d7.toNat → new.mode = prior.mode ∧ chg.mode = false)

/-- R75 to R79: the whole of command `0x52`. -/
def Obligations.StatusReport : Prop :=
  ∀ (d : Data) (prior : DeviceState) (s : State),
    ∃ new chg, exec (.interpretCmd52 d prior) s = .next (reply (.update new chg) s) ∧
      new.temperature.toNat = (d.d0 &&& 0x1F).toNat + 9 ∧
      (d.d4 &&& 0x80 ≠ 0 → new.power = .on) ∧ (d.d4 &&& 0x80 = 0 → new.power = .off) ∧
      (d.d3 &&& 0x0F = 0x0A → new.fanSpeed = .min) ∧ (d.d3 &&& 0x0F = 0x0C → new.fanSpeed = .mid) ∧
      (d.d3 &&& 0x0F = 0x0D → new.fanSpeed = .max) ∧
      (d.d3 &&& 0x0F ≠ 0x0A → d.d3 &&& 0x0F ≠ 0x0C → d.d3 &&& 0x0F ≠ 0x0D → new.fanSpeed = .auto) ∧
      new.mode = prior.mode ∧
      (chg.temp = true ↔ new.temperature ≠ prior.temperature) ∧
      (chg.power = true ↔ new.power ≠ prior.power) ∧
      (chg.fan = true ↔ new.fanSpeed ≠ prior.fanSpeed) ∧ chg.mode = false

/-- R80: every other command leaves the state as it was, with no report. -/
def Obligations.OtherCommandsChangeNothing : Prop :=
  ∀ (c : Byte) (d : Data) (prior : DeviceState) (s : State), c ≠ 0x52 → c ≠ 0x53 →
    exec (.interpretOther c d prior) s = .next (reply (.update prior ⟨false, false, false, false⟩) s)

/-- R88: the dispatch, on the command alone, whatever the addresses and the checksum are. -/
def Obligations.InterpretDispatchesOnTheCommand : Prop :=
  ∀ (f : Frame) (prior : DeviceState) (s : State),
    ∃ new chg, exec (.interpretStatusFrame f prior) s = .next (reply (.update new chg) s) ∧
      (f.command = 0x53 → exec (.interpretCmd53 f.data prior) s = .next (reply (.update new chg) s)) ∧
      (f.command = 0x52 → exec (.interpretCmd52 f.data prior) s = .next (reply (.update new chg) s)) ∧
      (f.command ≠ 0x53 → f.command ≠ 0x52 → new = prior ∧ chg = ⟨false, false, false, false⟩)

/-- R87 item 4: interpreting a frame a second time changes nothing and reports nothing. -/
def Obligations.InterpretIsIdempotent : Prop :=
  ∀ (f : Frame) (s0 : DeviceState),
    interpretStatusFrame f (interpretStatusFrame f s0).1 =
      ((interpretStatusFrame f s0).1, ⟨false, false, false, false⟩)

/-- R81, R82, R84, R85: the fourteen bytes of a command frame, for every state. For temperatures of 32 and
more and for `Unknown` fields these bytes are the spec's own decisions D5 and D3: log entry 15. -/
def Obligations.CommandFrameBytes : Prop :=
  ∀ (d : DeviceState) (s : State), ∃ y m q : Byte,
    y = s.params.fanBits.of d.fanSpeed ||| d.temperature ∧ m = s.params.modeRaw.of d.mode ∧
    q = s.params.powerRaw.of d.power ∧
    exec (.encodeCommandFrame d) s =
      .next (reply (.bytes
        [s.params.startMark, s.params.addrRemote, s.params.addrUnit, s.params.cmdSet,
          s.params.kSwingOff, s.params.kByte1, y, m, q, 0, 0, 0,
          s.params.addrRemote ^^^ s.params.addrUnit ^^^ s.params.cmdSet ^^^ s.params.kSwingOff ^^^
            s.params.kByte1 ^^^ y ^^^ m ^^^ q,
          s.params.endMark]) s)

/-- R83, with R8 item 1: in range, neither half of data byte 2 disturbs the other. The premise on the
temperature is D5 of the spec: log entry 15. -/
def Obligations.FanAndTemperatureDoNotOverlap : Prop :=
  ∀ (p : Params) (d : DeviceState), p.valid = true → d.temperature.toNat ≤ 31 →
    byteAt (encodeCommandFrame p d) 6 &&& 0xE0 = p.fanBits.of d.fanSpeed ∧
    byteAt (encodeCommandFrame p d) 6 &&& 0x1F = d.temperature

/-- R87 item 2: what FCBA sends passes its own decoder. The last clause names the bytes for every desired
state; for temperatures of 32 and more and for `Unknown` fields they are the spec's own decisions D5 and
D3: log entry 15. -/
def Obligations.CommandFramePassesTheDecoder : Prop :=
  ∀ (p : Params) (d : DeviceState),
    ∃ f, decodeStatusFrame p ((encodeCommandFrame p d).drop 1) = .ok f ∧
      f.source = p.addrRemote ∧ f.destination = p.addrUnit ∧ f.command = p.cmdSet ∧
      encodeCommandFrame p d =
        setFrame p (p.fanBits.of d.fanSpeed ||| d.temperature) (p.modeRaw.of d.mode) (p.powerRaw.of d.power)

/-! ## The store and the queue -/

/-- R90, R95: the copy is of all four fields at one instant and nothing is written; a caller that holds
the guard gets its own copy first. `GetStatus` is `Snapshot` and nothing else. How the model waits for a
guard: log entries 8 and 9; that the wait takes no time: log entry 32. D25 of the spec: log entry 33. -/
def Obligations.SnapshotReturnsTheStore : Prop :=
  ∀ (s : State) (i : Instr), i = .snapshot ∨ i = .getStatus → s.lifecycle = .running →
    ∃ t, exec i s = .next t ∧
      t.trace.replies = s.trace.replies ++ waitingCopyReply s ++ [(s.actor, .state s.ds)] ∧
      t.trace.written = s.trace.written ∧ t.trace.events = s.trace.events ∧
      t.ds = s.ds ∧ t.gDS = none ∧ SameQueue s t ∧ SameControl s t ∧ t.worker = s.worker ∧
      t.transport = s.transport ∧ t.world = s.world

/-- R91: the store becomes what the interpretation of the frame makes of it, and nothing else changes but
the guard that was waited for. The mutator is named by its frame: log entry 18; the wait for the guard:
log entry 9; that it takes no time: log entry 32. D27 of the spec, one holding of the guard: log entry 33. -/
def Obligations.ApplyUpdateWritesTheInterpretation : Prop :=
  ∀ (s : State) (f : Frame), s.lifecycle = .running →
    ∃ t, exec (.applyUpdate f) s = .next t ∧ t.ds = (interpretStatusFrame f s.ds).1 ∧
      t.trace.replies = s.trace.replies ++ waitingCopyReply s ++ [(s.actor, .unit)] ∧
      t.trace.written = s.trace.written ∧ t.trace.events = s.trace.events ∧
      t.gDS = none ∧ SameQueue s t ∧ SameControl s t ∧ t.worker = s.worker ∧
      t.transport = s.transport ∧ t.world = s.world

/-- R92, R96: one entry joins the tail, after the one that holds the guard; the store is not touched, so a
request does not change the status (R95). `RequestChange` is `Enqueue` and nothing else. How the model
waits for the guard: log entries 8 and 9; that the wait takes no time: log entry 32. The queue without a
bound, D19: log entry 23; D25 of the spec: log entry 33. -/
def Obligations.EnqueueAppendsOneEntry : Prop :=
  ∀ (s : State) (d : DeviceState) (i : Instr), i = .enqueue d ∨ i = .requestChange d →
    s.lifecycle = .running →
    ∃ t, exec i s = .next t ∧ t.cq = s.cq ++ waitingEntry s ++ [d] ∧ t.gCQ = none ∧
      t.trace.replies = s.trace.replies ++ waitingEntryReply s ++ [(s.actor, .unit)] ∧
      t.trace.written = s.trace.written ∧ t.trace.events = s.trace.events ∧
      SameStore s t ∧ SameControl s t ∧ t.worker = s.worker ∧ t.transport = s.transport ∧
      t.world = s.world

/-- R93: the head leaves the queue and is returned, or `None` from an empty queue; only time passes
beside. How the model waits for the guard: log entries 6, 8 and 9. -/
def Obligations.TryDequeuePopsTheHead : Prop :=
  ∀ (s : State), s.lifecycle = .running →
    ∃ t, exec .tryDequeue s = .next t ∧
      (∀ d rest, s.cq ++ waitingEntry s = d :: rest →
        t.cq = rest ∧
        t.trace.replies = s.trace.replies ++ waitingEntryReply s ++ [(s.actor, .optState (some d))]) ∧
      (s.cq ++ waitingEntry s = [] →
        t.cq = [] ∧ t.trace.replies = s.trace.replies ++ [(s.actor, .optState none)]) ∧
      t.trace.written = s.trace.written ∧ t.trace.events = s.trace.events ∧
      t.gCQ = none ∧ SameStore s t ∧ SameControl s t ∧ t.worker = s.worker ∧
      t.transport = s.transport ∧ TimePassed s t

/-- R94: the test tells whether the queue holds an entry and changes nothing. How the model waits for the
guard: log entries 8 and 9; that the wait and the test take no time: log entry 32. The operation of its
own is D13 of the spec: log entry 33. -/
def Obligations.NonEmptyTestsTheQueue : Prop :=
  ∀ (s : State), s.lifecycle = .running →
    ∃ t, exec .nonEmpty s = .next t ∧ t.cq = s.cq ++ waitingEntry s ∧ t.gCQ = none ∧
      t.trace.replies = s.trace.replies ++ waitingEntryReply s ++
        [(s.actor, .bool (decide (s.cq ++ waitingEntry s ≠ [])))] ∧
      t.trace.written = s.trace.written ∧ t.trace.events = s.trace.events ∧
      SameStore s t ∧ SameControl s t ∧ t.worker = s.worker ∧ t.transport = s.transport ∧
      t.world = s.world

/-- R99: N entries enqueued into an empty queue come out in their order, and then `None`; in any
interleaving what comes out is a prefix of what went in. The queue without a bound, D19: log entry 23. -/
def Obligations.FifoOrder : Prop :=
  (∀ (ds : List DeviceState) (s : State), s.lifecycle = .running → s.cq = [] → s.gCQ = none →
    ∃ t, runAll (ds.map Instr.enqueue ++ List.replicate (ds.length + 1) Instr.tryDequeue) s = .next t ∧
      t.cq = [] ∧
      t.trace.replies = s.trace.replies ++ ds.map (fun _ => (s.actor, .unit)) ++
        ds.map (fun d => (s.actor, .optState (some d))) ++ [(s.actor, .optState none)]) ∧
  (∀ (ops : List (Option DeviceState)) (s : State), s.lifecycle = .running → s.cq = [] → s.gCQ = none →
    ∃ t added, runAll (ops.map queueInstr) s = .next t ∧ t.trace.replies = s.trace.replies ++ added ∧
      poppedIn added <+: ops.filterMap id)

/-- R99, R41 item 3: in any interleaving the values popped and then the entries left are the entries that
were there and then those enqueued, in order: nothing is lost, doubled or reordered. The queue
without a bound, D19: log entry 23. -/
def Obligations.QueueLosesAndReordersNothing : Prop :=
  ∀ (ops : List (Option DeviceState)) (s : State), s.lifecycle = .running → s.gCQ = none →
    ∃ t added, runAll (ops.map queueInstr) s = .next t ∧ t.trace.replies = s.trace.replies ++ added ∧
      poppedIn added ++ t.cq = s.cq ++ ops.filterMap id

/-! ## The transport calls -/

/-- R33, R37: the oldest byte is returned and consumed, `None` when none waits; the call ends within its
timeout and changes nothing else. The transport is the model's: log entries 5 and 25. -/
def Obligations.ReadByteTakesTheOldest : Prop :=
  ∀ (s : State) (timeout : Nat), s.lifecycle = .running →
    ∃ t, exec (.readByte timeout) s = .next t ∧
      t.trace.replies = s.trace.replies ++ [(s.actor, .optByte s.transport.rx.head?)] ∧
      t.transport.rx = s.transport.rx.tail ∧ t.transport.config = s.transport.config ∧
      t.trace.written = s.trace.written ∧ t.trace.events = s.trace.events ∧
      SameStore s t ∧ SameQueue s t ∧ SameControl s t ∧ t.worker = s.worker ∧
      TimePassed s t ∧ t.world.clock ≤ s.world.clock + timeout

/-- R34, R37: at most the count, the next bytes in arrival order, all consumed; the call ends within its
timeout and changes nothing else. The transport is the model's: log entries 5 and 25. -/
def Obligations.ReadBytesTakesTheNext : Prop :=
  ∀ (s : State) (count timeout : Nat), s.lifecycle = .running →
    ∃ t got, exec (.readBytes count timeout) s = .next t ∧ got.length ≤ count ∧
      t.trace.replies = s.trace.replies ++ [(s.actor, .bytes got)] ∧
      s.transport.rx = got ++ t.transport.rx ∧ t.transport.config = s.transport.config ∧
      t.trace.written = s.trace.written ∧ t.trace.events = s.trace.events ∧
      SameStore s t ∧ SameQueue s t ∧ SameControl s t ∧ t.worker = s.worker ∧
      TimePassed s t ∧ t.world.clock ≤ s.world.clock + timeout

/-- R34, U8: every length up to the count is a possible answer. The length is taken from `bursts`: log
entry 5. -/
def Obligations.ReadBytesMayReturnAnyLength : Prop :=
  ∀ (s : State) (count timeout k : Nat), s.lifecycle = .running → k ≤ count →
    k ≤ s.transport.rx.length →
    ∃ t, exec (.readBytes count timeout) { s with world := { s.world with bursts := [k] } } = .next t ∧
      t.trace.replies = s.trace.replies ++ [(s.actor, .bytes (s.transport.rx.take k))]

/-- R35, R36, R37: the buffer is handed over whole, in one call; the wait ends within its bound and tells
nothing; neither changes anything else. The transport is the model's: log entries 5 and 25; that
`WriteBytes` takes no time: log entry 31. That an expired wait tells nothing is D23 of the spec: log entry
33. -/
def Obligations.WriteAndWait : Prop :=
  ∀ (s : State), s.lifecycle = .running →
    (∀ buf, ∃ t, exec (.writeBytes buf) s = .next t ∧ t.trace.written = s.trace.written ++ [buf] ∧
      t.trace.replies = s.trace.replies ++ [(s.actor, .unit)] ∧ t.trace.events = s.trace.events ∧
      SameStore s t ∧ SameQueue s t ∧ SameControl s t ∧ t.worker = s.worker ∧
      t.transport = s.transport ∧ t.world = s.world) ∧
    (∀ timeout, ∃ t, exec (.waitSendComplete timeout) s = .next t ∧
      t.trace.replies = s.trace.replies ++ [(s.actor, .unit)] ∧
      t.trace.written = s.trace.written ∧ t.trace.events = s.trace.events ∧
      SameStore s t ∧ SameQueue s t ∧ SameControl s t ∧ t.worker = s.worker ∧
      t.transport = s.transport ∧ TimePassed s t ∧ t.world.clock ≤ s.world.clock + timeout)

/-! ## Frames -/

/-- R58, R102, R104, R105, R135: each rejected encoding ends the tick with its own event, or with none for
a byte that is not `START`; the store, the queue and everything else keep their values. What is
logged and what an event records, D14: log entry 24; that the decode takes no time: log entry 32. -/
def Obligations.RejectedEncodingsEndTheTick : Prop :=
  ∀ (s : State) (i : Instr) (es : List Event), s.lifecycle = .running → s.worker.phase = .idle →
    i.wf s.params = true →
    ((∃ b, i = .rejectNotStart b ∧ es = []) ∨
      (∃ r, i = .rejectTruncated r ∧ es = [.truncatedFrame r.length]) ∨
      (∃ raw, i = .rejectInvalidEnd raw ∧ es = [.invalidTerminator raw]) ∨
      (∃ raw, i = .rejectChecksum raw ∧ es = [.checksumMismatch raw])) →
    ∃ t, exec i s = .next t ∧ t.trace.events = s.trace.events ++ es ∧ t.worker.phase = .idle ∧
      t.trace.written = s.trace.written ∧ t.trace.replies = s.trace.replies ∧
      SameStore s t ∧ SameQueue s t ∧ SameControl s t ∧ t.transport = s.transport ∧
      t.world.sched = s.world.sched ∧ t.world.clock = s.world.clock

/-- R107 to R114, R116, R117: an opportunity with a request waiting and the gate open. `EL` is the time
the pop and the encode take, the next of the environment's waits: log entries 5 and 6. Exactly 180 ms:
log entry 14. The upper bound of the clock, in which `WriteBytes`, the decode, the test and the update take
no time: log entries 31 and 32. D13 and D23 of the spec: log entry 33. -/
def Obligations.OpenGateTransmitsTheHead : Prop :=
  ∀ (s : State) (source command : Byte) (d : Data) (el : Nat) (waits : List Nat) (req : DeviceState)
    (rest : List DeviceState),
    s.lifecycle = .running → s.worker.phase = .idle → s.world.waits = el :: waits → el ≤ 180 →
    s.cq ++ waitingEntry s = req :: rest →
    ∃ t, exec (.opportunity source command d) s = .next t ∧ t.cq = rest ∧ t.gCQ = none ∧
      t.trace.written = s.trace.written ++ [encodeCommandFrame s.params req] ∧
      t.worker.phase = .idle ∧ SameControl s t ∧ t.transport = s.transport ∧
      t.world.sched = s.world.sched ∧ s.world.clock + el + s.params.tSettle ≤ t.world.clock ∧
      t.world.clock ≤ s.world.clock + el + s.params.tSettle + s.params.tTxWait ∧
      (s.params.addrMarker ≠ s.params.addrRemote ∨ source ≠ s.params.addrUnit →
        t.ds = s.ds ∧ t.gDS = s.gDS ∧ t.trace.events = s.trace.events ∧
        t.trace.replies = s.trace.replies ++ waitingEntryReply s)

/-- R112, R115: past 180 ms the request is lost: popped, not written, not put back, one event. `EL` is
the next of the environment's waits: log entries 5 and 6; what the event records, D14: log entry 24; that
only the pop and the encode take time: log entry 32. D7, D12 and D13 of the spec: log entries 14, 22 and
33. -/
def Obligations.ClosedGateLosesTheHead : Prop :=
  ∀ (s : State) (source command : Byte) (d : Data) (el : Nat) (waits : List Nat) (req : DeviceState)
    (rest : List DeviceState),
    s.lifecycle = .running → s.worker.phase = .idle → s.world.waits = el :: waits → 180 < el →
    s.cq ++ waitingEntry s = req :: rest →
    ∃ t es, exec (.opportunity source command d) s = .next t ∧ t.cq = rest ∧ t.gCQ = none ∧
      t.trace.written = s.trace.written ∧
      t.trace.events = s.trace.events ++ [.sendWindowMissed req el] ++ es ∧
      t.worker.phase = .idle ∧ SameControl s t ∧ t.transport = s.transport ∧
      t.world.sched = s.world.sched ∧ t.world.clock = s.world.clock + el ∧
      (s.params.addrMarker ≠ s.params.addrRemote ∨ source ≠ s.params.addrUnit →
        es = [] ∧ t.ds = s.ds ∧ t.gDS = s.gDS ∧
        t.trace.replies = s.trace.replies ++ waitingEntryReply s)

/-- R108: an opportunity with an empty queue and other addresses than a status frame does nothing at all.
That the decode and the test take no time: log entry 32. The test of its own, D13: log entry 33. -/
def Obligations.OpportunityWithEmptyQueue : Prop :=
  ∀ (s : State) (source command : Byte) (d : Data),
    s.lifecycle = .running → s.worker.phase = .idle → s.cq = [] → s.gCQ = none →
    (s.params.addrMarker ≠ s.params.addrRemote ∨ source ≠ s.params.addrUnit) →
    ∃ t, exec (.opportunity source command d) s = .next t ∧ SameQueue s t ∧ SameStore s t ∧
      SameOutput s t ∧ t.worker.phase = .idle ∧ SameControl s t ∧ t.transport = s.transport ∧
      t.world.sched = s.world.sched ∧ t.world.clock = s.world.clock

/-- R118 with R74 to R80: the three status rows write what the interpretation gives, one `Changed` event
for each field that differs, and touch neither the queue nor the bus. The order of the events is the
model's choice: log entry 7; what they record: log entry 24; the raw modes, D4: log entry 17; that the
decode and the update take no time: log entry 32; D24 of the spec: log entry 33. -/
def Obligations.StatusFramesUpdateTheStore : Prop :=
  ∀ (s : State) (i : Instr) (c : Byte) (d : Data),
    s.lifecycle = .running → s.worker.phase = .idle → s.params.addrMarker ≠ s.params.addrRemote →
    ((i = .status52 d ∧ c = 0x52) ∨ (i = .mode53 d ∧ c = 0x53) ∨
      (i = .statusOther c d ∧ c ≠ 0x52 ∧ c ≠ 0x53)) →
    ∃ t, exec i s = .next t ∧
      (c = 0x52 → t.ds =
        { s.ds with power := powerOf d.d4, fanSpeed := fanOf d.d3, temperature := temperatureOf d.d0 }) ∧
      (c = 0x53 → t.ds = { s.ds with mode := (modeOf d.d7).getD s.ds.mode }) ∧
      (c ≠ 0x52 → c ≠ 0x53 → t.ds = s.ds) ∧
      t.trace.events = s.trace.events ++
        (if t.ds.power = s.ds.power then [] else [.changedPower s.ds.power t.ds.power]) ++
        (if t.ds.mode = s.ds.mode then [] else [.changedMode s.ds.mode t.ds.mode]) ++
        (if t.ds.fanSpeed = s.ds.fanSpeed then [] else [.changedFan s.ds.fanSpeed t.ds.fanSpeed]) ++
        (if t.ds.temperature = s.ds.temperature then []
          else [.changedTemp s.ds.temperature t.ds.temperature]) ∧
      t.trace.replies = s.trace.replies ++ waitingCopyReply s ∧ t.gDS = none ∧
      t.trace.written = s.trace.written ∧ SameQueue s t ∧ t.worker.phase = .idle ∧ SameControl s t ∧
      t.transport = s.transport ∧ t.world.sched = s.world.sched ∧ t.world.clock = s.world.clock

/-- R120: a valid frame that is neither an opportunity nor a status frame causes nothing. That the decode
takes no time: log entry 32; D24 of the spec: log entry 33. -/
def Obligations.UnaddressedFramesCauseNothing : Prop :=
  ∀ (s : State) (source destination command : Byte) (d : Data),
    s.lifecycle = .running → s.worker.phase = .idle →
    (Instr.unaddressed source destination command d).wf s.params = true →
    ∃ t, exec (.unaddressed source destination command d) s = .next t ∧ SameQueue s t ∧ SameStore s t ∧
      SameOutput s t ∧ t.worker.phase = .idle ∧ SameControl s t ∧ t.transport = s.transport ∧
      t.world.sched = s.world.sched ∧ t.world.clock = s.world.clock

/-- R119, conflict C8: with `ADDR_MARKER = ADDR_REMOTE` a frame from the unit is both, by whichever of its
rows it is named; step 4 acts, open or closed gate or empty queue, and step 5 still runs. `EL` is
the next of the environment's waits: log entries 5 and 6. What `SendWindowMissed` and the `Changed` events
record, D14: log entry 24; the order of the latter: log entry 7. C8 and D12 of the spec: log entry 22;
exactly 180 ms: log entry 14; D13, D23 and D24 of the spec: log entry 33. -/
def Obligations.BothClassificationsApply : Prop :=
  ∀ (s : State) (i : Instr) (command : Byte) (d : Data) (f : Frame),
    s.lifecycle = .running → s.worker.phase = .idle → s.params.addrMarker = s.params.addrRemote →
    f = recordOf s.params.addrUnit s.params.addrRemote command d →
    (i = .opportunity s.params.addrUnit command d ∨ (i = .status52 d ∧ command = 0x52) ∨
      (i = .mode53 d ∧ command = 0x53) ∨ i = .statusOther command d) →
    ∃ t, exec i s = .next t ∧ t.ds = (interpretStatusFrame f s.ds).1 ∧ t.gDS = none ∧ t.gCQ = none ∧
      t.trace.replies = s.trace.replies ++ waitingEntryReply s ++ waitingCopyReply s ∧
      t.worker.phase = .idle ∧ SameControl s t ∧ t.transport = s.transport ∧ TimePassed s t ∧
      (∀ el waits req rest, s.world.waits = el :: waits → s.cq ++ waitingEntry s = req :: rest →
        t.cq = rest ∧
        t.trace.written = s.trace.written ++
          (if el ≤ 180 then [encodeCommandFrame s.params req] else []) ∧
        t.trace.events = s.trace.events ++ (if el ≤ 180 then [] else [.sendWindowMissed req el]) ++
          changedEvents s.ds t.ds (interpretStatusFrame f s.ds).2) ∧
      (s.cq ++ waitingEntry s = [] → t.cq = [] ∧ t.trace.written = s.trace.written ∧
        t.trace.events = s.trace.events ++ changedEvents s.ds t.ds (interpretStatusFrame f s.ds).2)

/-- R53 row 6, R114: a `SET` frame is handed to the transport, and nothing else happens. That the call takes
no time: log entry 31; what is recorded of a write: log entry 25. -/
def Obligations.SetIsHandedToTheTransport : Prop :=
  ∀ (s : State) (y m q : Byte), s.lifecycle = .running →
    ∃ t, exec (.set y m q) s = .next t ∧
      t.trace.written = s.trace.written ++ [setFrame s.params y m q] ∧
      t.trace.events = s.trace.events ∧ t.trace.replies = s.trace.replies ∧
      SameStore s t ∧ SameQueue s t ∧ SameControl s t ∧ t.worker = s.worker ∧
      t.transport = s.transport ∧ t.world = s.world

/-! ## The Bus Worker -/

/-- R100, R154: every tick ends, whatever the environment answers; it consumes at most 14 bytes from the
front of the buffer, removes at most one entry and writes at most one frame (R117), a command frame. That
every call returns: log entry 27; the transport is the model's: log entries 5 and 25. -/
def Obligations.EveryTickEnds : Prop :=
  ∀ (s : State), s.lifecycle = .running → s.worker.phase = .idle →
    ∃ t k, exec .tick s = .next t ∧ t.worker.phase = .idle ∧ SameControl s t ∧
      k ≤ 14 ∧ t.transport.rx = s.transport.rx.drop k ∧ t.transport.config = s.transport.config ∧
      TimePassed s t ∧
      (SameQueue s t ∧ t.trace.written = s.trace.written ∨
        t.gCQ = none ∧ ∃ req, s.cq ++ waitingEntry s = req :: t.cq ∧
          (t.trace.written = s.trace.written ∨
            t.trace.written = s.trace.written ++ [encodeCommandFrame s.params req]))

/-- R101, R102: no byte, or a byte that is not `START`: at most that byte is consumed and nothing else
changes but time. That nothing is logged is D14 of the spec: log entry 24; the transport is the model's: log
entries 5 and 25; that only the read takes time: log entry 32. -/
def Obligations.TickWithoutAFrame : Prop :=
  ∀ (s : State), s.lifecycle = .running → s.worker.phase = .idle →
    s.transport.rx.head? ≠ some s.params.startMark →
    ∃ t, exec .tick s = .next t ∧ t.transport.rx = s.transport.rx.tail ∧
      t.transport.config = s.transport.config ∧ SameStore s t ∧ SameQueue s t ∧ SameOutput s t ∧
      SameControl s t ∧ t.worker.phase = .idle ∧ TimePassed s t ∧
      t.world.clock ≤ s.world.clock + s.params.tPoll

/-- R104, R103: fewer than 13 bytes after a start marker: all are consumed, one event, nothing else.
The number the event records is D14 of the spec: log entry 24. That the burst is not cut shorter is the
premise on `bursts`: log entry 5; the receive buffer: log entry 25. -/
def Obligations.TickDropsATruncatedFrame : Prop :=
  ∀ (s : State) (received : List Byte), s.lifecycle = .running → s.worker.phase = .idle →
    s.transport.rx = s.params.startMark :: received → received.length < 13 →
    s.world.bursts.head? = some 13 →
    ∃ t, exec .tick s = .next t ∧ t.transport.rx = [] ∧
      t.trace.events = s.trace.events ++ [.truncatedFrame received.length] ∧
      t.trace.written = s.trace.written ∧ t.trace.replies = s.trace.replies ∧
      SameStore s t ∧ SameQueue s t ∧ SameControl s t ∧ t.worker.phase = .idle ∧ TimePassed s t

/-- A step runs the decoded instruction: in a whole tick (R100, R101, R103) `step` is `exec` of the row
that the bytes taken from the transport decode to, at the state after taking them. The bytes are one, or
the start marker and what the burst gave, at most 13; `fetch` is `ReadByte` and `ReadBytes`. Whole ticks
are scheduled: log entries 12 and 28; how a frame is named: log entry 21. -/
def Obligations.StepRunsTheDecodedInstruction : Prop :=
  ∀ (s : State) (ms : List Move) (bytes : List Byte) (i : Instr) (s1 s2 : State),
    s.lifecycle = .running → s.worker.phase = .idle → s.shutdownReq = false →
    s.world.sched = .tick :: ms →
    s1 = { s with world := { s.world with sched := ms }, actor := .worker } →
    fetch s1 = (bytes, s2) → decode s.params bytes = .instr i [] →
    step s = exec i s2 ∧ s.transport.rx = bytes ++ s2.transport.rx ∧ i.wf s.params = true

/-- The same for the transmit row (R114): in phase `OppWrite` the step is `exec` of the `SET` that `TXB`
encodes, and the phase moves on to `OppWait`. Log entries 12 and 21; the phases, D11: log entry 33. -/
def Obligations.StepSendsTheEncodedInstruction : Prop :=
  ∀ (s : State) (ms : List Move) (i : Instr),
    s.lifecycle = .running → s.worker.phase = .oppWrite → s.world.sched = .worker :: ms →
    decodeSent s.params s.worker.txb = some i →
    ∃ t, exec i { s with world := { s.world with sched := ms }, actor := .worker } = .next t ∧
      step s = .next { t with worker := { t.worker with phase := .oppWait } }

/-- The same for a caller's call (R41, R95, R96): the step is `exec` of the operation, once the call the
caller was inside has returned. Log entry 11. -/
def Obligations.StepRunsTheCall : Prop :=
  ∀ (s : State) (n : Nat) (c : Call) (ms : List Move), s.world.sched = .call n c :: ms →
    s.gDS ≠ some n → (∀ d, s.gCQ ≠ some (n, d)) →
    step s = exec c.instr { s with world := { s.world with sched := ms }, actor := .caller n }

/-- R121: the worker moves along the table's edges only, and the table moves forward or back to `Idle`
(R20). The phases, D11: log entry 33. -/
def Obligations.WorkerFollowsThePhaseTable : Prop :=
  (∀ (s t : State) (ms : List Move), s.lifecycle = .running → s.shutdownReq = false →
    s.world.sched = .worker :: ms → step s = .next t →
    (s.worker.phase, t.worker.phase) ∈ phaseEdges) ∧
  (∀ e ∈ phaseEdges, e.1.rank < e.2.rank ∨ e.2 = .idle)

/-- R43, R121: left to itself a running block never sticks. Callers inside a guarded copy finish it: within
two steps both guards are free, each of their operations has completed and returned, and nothing else has
changed; then the worker has an edge. That holders finish unscheduled: log entries 9 and 28; that calls
return: log entry 27; that a holder's copy takes no time: log entry 32. -/
def Obligations.WorkerNeverSticks : Prop :=
  ∀ (s : State), Inv s → s.lifecycle = .running → s.world.sched = [] →
    (∃ t, step s = .next t) ∧
    ∃ k t u, k ≤ 2 ∧ core.run k s = .next t ∧ t.gDS = none ∧ t.gCQ = none ∧
      t.trace.replies = s.trace.replies ++ waitingCopyReply s ++ waitingEntryReply s ∧
      t.trace.written = s.trace.written ∧ t.trace.events = s.trace.events ∧
      t.ds = s.ds ∧ t.cq = s.cq ++ waitingEntry s ∧ SameControl s t ∧ t.worker = s.worker ∧
      t.transport = s.transport ∧ t.world = s.world ∧ step t = .next u ∧ u.actor = .worker

/-- R100 and R121 describe one tick: taking the worker's edges one after another from `Idle`, with nobody
in between, comes to exactly the state of the whole tick, in at most twelve steps, whatever is scheduled
after it and whoever holds a guard. Log entry 28; the dead registers of both: log entry 4; the phases and
their order, D11 and D13: log entry 33. -/
def Obligations.PhasesRefineTheTick : Prop :=
  ∀ (s t : State), s.lifecycle = .running → s.worker.phase = .idle → s.shutdownReq = false →
    step { s with world := { s.world with sched := .tick :: s.world.sched } } = .next t →
    ∃ k, 2 ≤ k ∧ k ≤ 12 ∧
      core.run k { s with world := { s.world with sched := List.replicate k .worker ++ s.world.sched } } =
        .next t

/-! ## The whole machine -/

/-- Every step keeps the invariant. Its clauses on a block that does not run rest on D15 and D16 of the
spec (log entries 10, 13 and 30), the clause on one caller in one operation on log entry 11, the gate on D7
(log entry 14), the phases on D11 (log entry 33). -/
def Obligations.StepKeepsInvariant : Prop :=
  ∀ (s t : State), Inv s → step s = .next t → Inv t

/-- The reset state meets the invariant. Values of the reset state that the spec does not give: log entries
2, 3 and 30; the invariant holds whatever the transient registers are. -/
def Obligations.ResetMeetsInvariant : Prop := Inv State.reset

/-- R46, R114, R115, R164: the bus is written only by the Bus Worker, one frame at a time, in a tick that
decoded an opportunity, and what is written is the encoding of a request that has left the queue. In the
phase `OppWrite` the gate has been open; for a whole tick that is the statement about the open gate.
Exactly 180 ms: log entry 14; whole ticks: log entry 28. -/
def Obligations.BusIsWrittenOnlyInAnOpportunity : Prop :=
  ∀ (s t : State), Inv s → step s = .next t → t.trace.written ≠ s.trace.written →
    t.actor = .worker ∧ s.lifecycle = .running ∧
    ∃ req, t.trace.written = s.trace.written ++ [encodeCommandFrame s.params req] ∧
      ((s.worker.phase = .oppWrite ∧ req = s.worker.req ∧ s.worker.el ≤ 180 ∧
          s.worker.frm.destination = s.params.addrMarker) ∨
        (s.worker.phase = .idle ∧ s.cq ++ waitingEntry s = req :: t.cq ∧
          ∃ raw rest f, s.transport.rx = s.params.startMark :: raw ++ rest ∧ raw.length = 13 ∧
            decodeStatusFrame s.params raw = .ok f ∧ f.destination = s.params.addrMarker))

/-- R15, R98, R137: while the block runs, no step but the Bus Worker's changes the store. -/
def Obligations.OnlyTheWorkerWritesTheStore : Prop :=
  ∀ (s t : State), s.lifecycle = .running → step s = .next t → t.ds ≠ s.ds → t.actor = .worker

/-- R17, R41 item 3, R137: while the block runs, a step that is not the Bus Worker's removes no entry and
reorders none: it only adds at the tail. -/
def Obligations.OnlyTheWorkerRemovesEntries : Prop :=
  ∀ (s t : State), s.lifecycle = .running → step s = .next t → t.actor ≠ .worker →
    ∃ more, t.cq = s.cq ++ more

/-- R11, R12, R13, R153: while the block runs on, a field that is known stays known. -/
def Obligations.KnownFieldsStayKnown : Prop :=
  ∀ (s t : State), s.lifecycle = .running → step s = .next t → t.lifecycle = .running →
    (s.ds.power ≠ .unknown → t.ds.power ≠ .unknown) ∧ (s.ds.mode ≠ .unknown → t.ds.mode ≠ .unknown) ∧
    (s.ds.fanSpeed ≠ .unknown → t.ds.fanSpeed ≠ .unknown)

/-- R23, R26: the parameters are constant from start-up on. -/
def Obligations.ParametersNeverChange : Prop :=
  ∀ (s t : State), s.lifecycle = .running → step s = .next t → t.params = s.params

/-- R41 item 1, R40: while a caller is inside `GetStatus` no step changes the store under it; the step
that ends its copy delivers all four fields of one instant. Guards in the model: log entries 8 and 9; a
shutdown: log entry 10. -/
def Obligations.NoTornReads : Prop :=
  ∀ (s t : State) (n : Nat), s.lifecycle = .running → s.gDS = some n → step s = .next t →
    (t.gDS = some n ∧ t.ds = s.ds) ∨
    (Agent.caller n, Answer.state s.ds) ∈ t.trace.replies.drop s.trace.replies.length

/-- R131, R143: no step takes back or rewrites what was observed. The traces are the model's: log entry
24. -/
def Obligations.TracesOnlyGrow : Prop :=
  ∀ (s t : State), step s = .next t →
    (∃ w, t.trace.written = s.trace.written ++ w) ∧ (∃ e, t.trace.events = s.trace.events ++ e) ∧
    (∃ r, t.trace.replies = s.trace.replies ++ r)

/-! ## Start-up and shutdown -/

/-- R27, R150: from the reset state with nothing scheduled the first step is the start-up, whatever its
collaborator hands over: it ends in `Running` or `InitFailed`, with legal parameters (R8) and the store at
its default. Log entries 2, 12 and 30; that neither end is logged: log entry 24. -/
def Obligations.ResetStartsUp : Prop :=
  ∃ t, step State.reset = .next t ∧ (t.lifecycle = .running ∨ t.lifecycle = .initFailed) ∧
    t.params.valid = true ∧ t.ds = ⟨.unknown, .unknown, .unknown, 0⟩ ∧ t.cq = [] ∧
    t.worker.phase = .idle ∧ SameOutput State.reset t

/-- R150, R27, R141, R156: after a start-up, the first of a block or one after a shutdown, every register
has its reset value and the transport has its configuration. What the transport's buffer then holds is the
transport's. Log entries 13 and 30; that a start-up is not logged: log entry 24. -/
def Obligations.StartUpGivesTheResetValues : Prop :=
  ∀ (s : State) (p : Params) (rx : List Byte) (ms : List Move),
    s.lifecycle = .uninit ∨ s.lifecycle = .stopped →
    p.valid = true → s.world.sched = .startUp p true rx :: ms →
    ∃ t, step s = .next t ∧ t.lifecycle = .running ∧ t.params = p ∧
      t.ds = ⟨.unknown, .unknown, .unknown, 0⟩ ∧ t.cq = [] ∧ t.gDS = none ∧ t.gCQ = none ∧
      t.worker.phase = .idle ∧ t.shutdownReq = false ∧ t.transport.rx = rx ∧
      t.transport.config = some ⟨2400, 8, true, 1, true, p.tInterbyte⟩ ∧ SameOutput s t

/-- R151, R136: a transport that cannot be opened: `InitFailed`, and from there no return. Every step
stays there, writes and emits nothing and leaves the store and the queue alone, and a start-up stops by
name. D16 of the spec: log entry 13. That a failed start-up leaves no event is the model's choice, for R130
says 'not stated' for code 5: log entry 24. -/
def Obligations.TransportFailureIsFatal : Prop :=
  (∀ (s : State) (p : Params) (rx : List Byte) (ms : List Move),
    s.lifecycle = .uninit ∨ s.lifecycle = .stopped →
    p.valid = true → s.world.sched = .startUp p false rx :: ms →
    ∃ t, step s = .next t ∧ t.lifecycle = .initFailed ∧ t.transport.config = none ∧ SameOutput s t) ∧
  (∀ (s t : State), s.lifecycle = .initFailed → Inv s → step s = .next t →
    t.lifecycle = .initFailed ∧ t.trace.written = s.trace.written ∧ t.trace.events = s.trace.events ∧
      SameStore s t ∧ SameQueue s t) ∧
  (∀ (s : State) (p : Params) (opened : Bool) (rx : List Byte) (ms : List Move),
    s.lifecycle = .initFailed → s.world.sched = .startUp p opened rx :: ms →
    step s = .fault (.notRunning .initFailed))

/-- R155, R154: a requested shutdown takes effect at the worker's next move between ticks, be it an edge,
a whole tick or the one it makes unscheduled; the transport is released and what is queued is lost. In the
middle of a tick the worker goes on. D16 of the spec: log entry 10; whole ticks: log entry 28; that a
shutdown is not logged: log entry 24. -/
def Obligations.ShutdownTakesEffectBetweenTicks : Prop :=
  ∀ (s t : State), s.lifecycle = .running → s.shutdownReq = true →
    s.world.sched.head? = some .worker ∨ (s.world.sched.head? = some .tick ∧ s.worker.phase = .idle) ∨
      (s.world.sched = [] ∧ s.gDS = none ∧ s.gCQ = none) →
    step s = .next t →
    (s.worker.phase = .idle → t.lifecycle = .stopped ∧ t.transport.config = none ∧ t.cq = [] ∧
      t.trace.written = s.trace.written ∧ t.trace.events = s.trace.events) ∧
    (s.worker.phase ≠ .idle → t.lifecycle = .running ∧ t.transport.config = s.transport.config)

/-- R151, R25, U16: outside `Running` no operation on the shared state, the transport or a frame has a
step; the pure codec operations need none. U16 as a fault: log entry 19. -/
def Obligations.NoOperationOutsideRunning : Prop :=
  ∀ (s : State) (i : Instr), s.lifecycle ≠ .running →
    i ∈ [Instr.snapshot, .getStatus, .tryDequeue, .nonEmpty, .tick] ∨
      (∃ d, i = .enqueue d ∨ i = .requestChange d) ∨ (∃ f, i = .applyUpdate f) ∨
      (∃ n k, i = .readByte n ∨ i = .readBytes k n ∨ i = .waitSendComplete n) ∨
      (∃ b, i = .writeBytes b) ∨ (∃ a b c, i = .set a b c) ∨
      (∃ a c d, i = .opportunity a c d ∨ i = .status52 d ∨ i = .mode53 d ∨ i = .statusOther c d) ∨
      (∃ a b c d, i = .unaddressed a b c d) →
    exec i s = .fault (.notRunning s.lifecycle)

/-- R37, R53, R58, R70, R73: where a term of the table stops. A buffer outside the domain of `Checksum` or
`DecodeStatusFrame` and a term whose bytes contradict its row are no instruction; a whole tick does not
start in the middle of a tick; a reject row, like every other, has no step outside `Running`. That these
stop by name is the model's reading (log entries 16, 19, 20). -/
def Obligations.TermsOutsideTheirDomainStop : Prop :=
  (∀ (s : State) (i : Instr), i.wf s.params = false →
    (∃ b, i = .rejectNotStart b) ∨ (∃ r, i = .rejectTruncated r ∨ i = .rejectInvalidEnd r ∨
      i = .rejectChecksum r) ∨ (∃ c d prior, i = .interpretOther c d prior) →
    exec i s = .refused .illFormed) ∧
  (∀ (s : State) (b : List Byte), b.length < 11 → exec (.checksum b) s = .refused .checksumDomain) ∧
  (∀ (s : State) (b : List Byte), b.length ≠ 13 →
    exec (.decodeStatusFrame b) s = .refused .decodeDomain) ∧
  (∀ (s : State) (i : Instr), i.wf s.params = true →
    (∃ b, i = .rejectNotStart b) ∨ (∃ r, i = .rejectTruncated r ∨ i = .rejectInvalidEnd r ∨
      i = .rejectChecksum r) →
    (s.lifecycle ≠ .running → exec i s = .fault (.notRunning s.lifecycle)) ∧
    (s.lifecycle = .running → s.worker.phase ≠ .idle → exec i s = .fault .tickOverlap)) ∧
  (∀ (s : State) (i : Instr), s.lifecycle = .running → s.worker.phase ≠ .idle →
    i = .tick ∨ (∃ a c d, i = .opportunity a c d ∨ i = .status52 d ∨ i = .mode53 d ∨ i = .statusOther c d) ∨
      (∃ a b c d, i = .unaddressed a b c d) →
    exec i s = .fault .tickOverlap)
end

