-- ==== Sys2Proof/Laws/State.lean ====
section
/-! SUPPORT. One lemma per field per update: what each of the updates the meanings are made of leaves
alone, and what it puts into the fields it changes. All true by unfolding the update once. -/
namespace Sys2Proof.Machine

/-! ### `actAs` -/

@[simp] theorem actAs_params (a : Agent) (s : State) : (actAs a s).params = s.params := rfl
@[simp] theorem actAs_lifecycle (a : Agent) (s : State) : (actAs a s).lifecycle = s.lifecycle := rfl
@[simp] theorem actAs_shutdownReq (a : Agent) (s : State) : (actAs a s).shutdownReq = s.shutdownReq := rfl
@[simp] theorem actAs_ds (a : Agent) (s : State) : (actAs a s).ds = s.ds := rfl
@[simp] theorem actAs_gDS (a : Agent) (s : State) : (actAs a s).gDS = s.gDS := rfl
@[simp] theorem actAs_cq (a : Agent) (s : State) : (actAs a s).cq = s.cq := rfl
@[simp] theorem actAs_gCQ (a : Agent) (s : State) : (actAs a s).gCQ = s.gCQ := rfl
@[simp] theorem actAs_worker (a : Agent) (s : State) : (actAs a s).worker = s.worker := rfl
@[simp] theorem actAs_transport (a : Agent) (s : State) : (actAs a s).transport = s.transport := rfl
@[simp] theorem actAs_world (a : Agent) (s : State) : (actAs a s).world = s.world := rfl
@[simp] theorem actAs_trace (a : Agent) (s : State) : (actAs a s).trace = s.trace := rfl

@[simp] theorem actAs_actor (a : Agent) (s : State) : (actAs a s).actor = a := rfl

/-! ### `emit` -/

@[simp] theorem emit_params (es : List Event) (s : State) : (emit es s).params = s.params := rfl
@[simp] theorem emit_lifecycle (es : List Event) (s : State) : (emit es s).lifecycle = s.lifecycle := rfl
@[simp] theorem emit_shutdownReq (es : List Event) (s : State) : (emit es s).shutdownReq = s.shutdownReq := rfl
@[simp] theorem emit_ds (es : List Event) (s : State) : (emit es s).ds = s.ds := rfl
@[simp] theorem emit_gDS (es : List Event) (s : State) : (emit es s).gDS = s.gDS := rfl
@[simp] theorem emit_cq (es : List Event) (s : State) : (emit es s).cq = s.cq := rfl
@[simp] theorem emit_gCQ (es : List Event) (s : State) : (emit es s).gCQ = s.gCQ := rfl
@[simp] theorem emit_worker (es : List Event) (s : State) : (emit es s).worker = s.worker := rfl
@[simp] theorem emit_transport (es : List Event) (s : State) : (emit es s).transport = s.transport := rfl
@[simp] theorem emit_world (es : List Event) (s : State) : (emit es s).world = s.world := rfl
@[simp] theorem emit_actor (es : List Event) (s : State) : (emit es s).actor = s.actor := rfl

@[simp] theorem emit_trace_events (es : List Event) (s : State) : (emit es s).trace.events = s.trace.events ++ es := rfl
@[simp] theorem emit_trace_written (es : List Event) (s : State) : (emit es s).trace.written = s.trace.written := rfl
@[simp] theorem emit_trace_replies (es : List Event) (s : State) : (emit es s).trace.replies = s.trace.replies := rfl
@[simp] theorem emit_nil (s : State) : emit [] s = s := by simp [emit]

/-! ### `replyTo` -/

@[simp] theorem replyTo_params (g : Agent) (a : Answer) (s : State) : (replyTo g a s).params = s.params := rfl
@[simp] theorem replyTo_lifecycle (g : Agent) (a : Answer) (s : State) : (replyTo g a s).lifecycle = s.lifecycle := rfl
@[simp] theorem replyTo_shutdownReq (g : Agent) (a : Answer) (s : State) : (replyTo g a s).shutdownReq = s.shutdownReq := rfl
@[simp] theorem replyTo_ds (g : Agent) (a : Answer) (s : State) : (replyTo g a s).ds = s.ds := rfl
@[simp] theorem replyTo_gDS (g : Agent) (a : Answer) (s : State) : (replyTo g a s).gDS = s.gDS := rfl
@[simp] theorem replyTo_cq (g : Agent) (a : Answer) (s : State) : (replyTo g a s).cq = s.cq := rfl
@[simp] theorem replyTo_gCQ (g : Agent) (a : Answer) (s : State) : (replyTo g a s).gCQ = s.gCQ := rfl
@[simp] theorem replyTo_worker (g : Agent) (a : Answer) (s : State) : (replyTo g a s).worker = s.worker := rfl
@[simp] theorem replyTo_transport (g : Agent) (a : Answer) (s : State) : (replyTo g a s).transport = s.transport := rfl
@[simp] theorem replyTo_world (g : Agent) (a : Answer) (s : State) : (replyTo g a s).world = s.world := rfl
@[simp] theorem replyTo_actor (g : Agent) (a : Answer) (s : State) : (replyTo g a s).actor = s.actor := rfl

@[simp] theorem replyTo_trace_events (g : Agent) (a : Answer) (s : State) : (replyTo g a s).trace.events = s.trace.events := rfl
@[simp] theorem replyTo_trace_written (g : Agent) (a : Answer) (s : State) : (replyTo g a s).trace.written = s.trace.written := rfl
@[simp] theorem replyTo_trace_replies (g : Agent) (a : Answer) (s : State) :
    (replyTo g a s).trace.replies = s.trace.replies ++ [(g, a)] := rfl

/-! ### `reply` -/

@[simp] theorem reply_params (a : Answer) (s : State) : (reply a s).params = s.params := rfl
@[simp] theorem reply_lifecycle (a : Answer) (s : State) : (reply a s).lifecycle = s.lifecycle := rfl
@[simp] theorem reply_shutdownReq (a : Answer) (s : State) : (reply a s).shutdownReq = s.shutdownReq := rfl
@[simp] theorem reply_ds (a : Answer) (s : State) : (reply a s).ds = s.ds := rfl
@[simp] theorem reply_gDS (a : Answer) (s : State) : (reply a s).gDS = s.gDS := rfl
@[simp] theorem reply_cq (a : Answer) (s : State) : (reply a s).cq = s.cq := rfl
@[simp] theorem reply_gCQ (a : Answer) (s : State) : (reply a s).gCQ = s.gCQ := rfl
@[simp] theorem reply_worker (a : Answer) (s : State) : (reply a s).worker = s.worker := rfl
@[simp] theorem reply_transport (a : Answer) (s : State) : (reply a s).transport = s.transport := rfl
@[simp] theorem reply_world (a : Answer) (s : State) : (reply a s).world = s.world := rfl
@[simp] theorem reply_actor (a : Answer) (s : State) : (reply a s).actor = s.actor := rfl

@[simp] theorem reply_trace_events (a : Answer) (s : State) : (reply a s).trace.events = s.trace.events := rfl
@[simp] theorem reply_trace_written (a : Answer) (s : State) : (reply a s).trace.written = s.trace.written := rfl
@[simp] theorem reply_trace_replies (a : Answer) (s : State) :
    (reply a s).trace.replies = s.trace.replies ++ [(s.actor, a)] := rfl

/-! ### `endTick` -/

@[simp] theorem endTick_params (s : State) : (endTick s).params = s.params := rfl
@[simp] theorem endTick_lifecycle (s : State) : (endTick s).lifecycle = s.lifecycle := rfl
@[simp] theorem endTick_shutdownReq (s : State) : (endTick s).shutdownReq = s.shutdownReq := rfl
@[simp] theorem endTick_ds (s : State) : (endTick s).ds = s.ds := rfl
@[simp] theorem endTick_gDS (s : State) : (endTick s).gDS = s.gDS := rfl
@[simp] theorem endTick_cq (s : State) : (endTick s).cq = s.cq := rfl
@[simp] theorem endTick_gCQ (s : State) : (endTick s).gCQ = s.gCQ := rfl
@[simp] theorem endTick_transport (s : State) : (endTick s).transport = s.transport := rfl
@[simp] theorem endTick_trace (s : State) : (endTick s).trace = s.trace := rfl
@[simp] theorem endTick_actor (s : State) : (endTick s).actor = s.actor := rfl

@[simp] theorem endTick_phase (s : State) : (endTick s).worker.phase = .idle := rfl
@[simp] theorem endTick_clock (s : State) : (endTick s).world.clock = s.world.clock := rfl
@[simp] theorem endTick_waits (s : State) : (endTick s).world.waits = s.world.waits := rfl
@[simp] theorem endTick_bursts (s : State) : (endTick s).world.bursts = s.world.bursts := rfl
@[simp] theorem endTick_sched (s : State) : (endTick s).world.sched = s.world.sched := rfl
@[simp] theorem endTick_draws (s : State) : (endTick s).world.draws = s.world.draws + 1 := rfl

/-! ### `discardRequest` -/

@[simp] theorem discardRequest_params (s : State) : (discardRequest s).params = s.params := rfl
@[simp] theorem discardRequest_lifecycle (s : State) : (discardRequest s).lifecycle = s.lifecycle := rfl
@[simp] theorem discardRequest_shutdownReq (s : State) : (discardRequest s).shutdownReq = s.shutdownReq := rfl
@[simp] theorem discardRequest_ds (s : State) : (discardRequest s).ds = s.ds := rfl
@[simp] theorem discardRequest_gDS (s : State) : (discardRequest s).gDS = s.gDS := rfl
@[simp] theorem discardRequest_cq (s : State) : (discardRequest s).cq = s.cq := rfl
@[simp] theorem discardRequest_gCQ (s : State) : (discardRequest s).gCQ = s.gCQ := rfl
@[simp] theorem discardRequest_transport (s : State) : (discardRequest s).transport = s.transport := rfl
@[simp] theorem discardRequest_trace (s : State) : (discardRequest s).trace = s.trace := rfl
@[simp] theorem discardRequest_actor (s : State) : (discardRequest s).actor = s.actor := rfl
@[simp] theorem discardRequest_phase (s : State) : (discardRequest s).worker.phase = s.worker.phase := rfl
@[simp] theorem discardRequest_sb (s : State) : (discardRequest s).worker.sb = s.worker.sb := rfl
@[simp] theorem discardRequest_rxb (s : State) : (discardRequest s).worker.rxb = s.worker.rxb := rfl
@[simp] theorem discardRequest_frm (s : State) : (discardRequest s).worker.frm = s.worker.frm := rfl
@[simp] theorem discardRequest_t0 (s : State) : (discardRequest s).worker.t0 = s.worker.t0 := rfl
@[simp] theorem discardRequest_el (s : State) : (discardRequest s).worker.el = s.worker.el := rfl
@[simp] theorem discardRequest_req (s : State) :
    (discardRequest s).worker.req = Config.deadREQ s.world.draws := rfl
@[simp] theorem discardRequest_txb (s : State) :
    (discardRequest s).worker.txb = Config.deadTXB s.world.draws := rfl
@[simp] theorem discardRequest_clock (s : State) : (discardRequest s).world.clock = s.world.clock := rfl
@[simp] theorem discardRequest_waits (s : State) : (discardRequest s).world.waits = s.world.waits := rfl
@[simp] theorem discardRequest_bursts (s : State) : (discardRequest s).world.bursts = s.world.bursts := rfl
@[simp] theorem discardRequest_sched (s : State) : (discardRequest s).world.sched = s.world.sched := rfl
@[simp] theorem discardRequest_draws (s : State) :
    (discardRequest s).world.draws = s.world.draws + 1 := rfl

/-! ### `raise` -/

@[simp] theorem raise_params (e : Event) (s : State) : (raise e s).params = s.params := rfl
@[simp] theorem raise_lifecycle (e : Event) (s : State) : (raise e s).lifecycle = s.lifecycle := rfl
@[simp] theorem raise_shutdownReq (e : Event) (s : State) : (raise e s).shutdownReq = s.shutdownReq := rfl
@[simp] theorem raise_ds (e : Event) (s : State) : (raise e s).ds = s.ds := rfl
@[simp] theorem raise_gDS (e : Event) (s : State) : (raise e s).gDS = s.gDS := rfl
@[simp] theorem raise_cq (e : Event) (s : State) : (raise e s).cq = s.cq := rfl
@[simp] theorem raise_gCQ (e : Event) (s : State) : (raise e s).gCQ = s.gCQ := rfl
@[simp] theorem raise_transport (e : Event) (s : State) : (raise e s).transport = s.transport := rfl
@[simp] theorem raise_actor (e : Event) (s : State) : (raise e s).actor = s.actor := rfl

@[simp] theorem raise_phase (e : Event) (s : State) : (raise e s).worker.phase = .idle := rfl
@[simp] theorem raise_events (e : Event) (s : State) : (raise e s).trace.events = s.trace.events ++ [e] := rfl
@[simp] theorem raise_written (e : Event) (s : State) : (raise e s).trace.written = s.trace.written := rfl
@[simp] theorem raise_replies (e : Event) (s : State) : (raise e s).trace.replies = s.trace.replies := rfl
@[simp] theorem raise_clock (e : Event) (s : State) : (raise e s).world.clock = s.world.clock := rfl
@[simp] theorem raise_sched (e : Event) (s : State) : (raise e s).world.sched = s.world.sched := rfl

/-! ### `goTo` -/

@[simp] theorem goTo_params (ph : Phase) (s : State) : (goTo ph s).params = s.params := rfl
@[simp] theorem goTo_lifecycle (ph : Phase) (s : State) : (goTo ph s).lifecycle = s.lifecycle := rfl
@[simp] theorem goTo_shutdownReq (ph : Phase) (s : State) : (goTo ph s).shutdownReq = s.shutdownReq := rfl
@[simp] theorem goTo_ds (ph : Phase) (s : State) : (goTo ph s).ds = s.ds := rfl
@[simp] theorem goTo_gDS (ph : Phase) (s : State) : (goTo ph s).gDS = s.gDS := rfl
@[simp] theorem goTo_cq (ph : Phase) (s : State) : (goTo ph s).cq = s.cq := rfl
@[simp] theorem goTo_gCQ (ph : Phase) (s : State) : (goTo ph s).gCQ = s.gCQ := rfl
@[simp] theorem goTo_transport (ph : Phase) (s : State) : (goTo ph s).transport = s.transport := rfl
@[simp] theorem goTo_world (ph : Phase) (s : State) : (goTo ph s).world = s.world := rfl
@[simp] theorem goTo_trace (ph : Phase) (s : State) : (goTo ph s).trace = s.trace := rfl
@[simp] theorem goTo_actor (ph : Phase) (s : State) : (goTo ph s).actor = s.actor := rfl

@[simp] theorem goTo_phase (ph : Phase) (s : State) : (goTo ph s).worker.phase = ph := rfl
@[simp] theorem goTo_sb (ph : Phase) (s : State) : (goTo ph s).worker.sb = s.worker.sb := rfl
@[simp] theorem goTo_rxb (ph : Phase) (s : State) : (goTo ph s).worker.rxb = s.worker.rxb := rfl
@[simp] theorem goTo_frm (ph : Phase) (s : State) : (goTo ph s).worker.frm = s.worker.frm := rfl
@[simp] theorem goTo_t0 (ph : Phase) (s : State) : (goTo ph s).worker.t0 = s.worker.t0 := rfl
@[simp] theorem goTo_req (ph : Phase) (s : State) : (goTo ph s).worker.req = s.worker.req := rfl
@[simp] theorem goTo_txb (ph : Phase) (s : State) : (goTo ph s).worker.txb = s.worker.txb := rfl
@[simp] theorem goTo_el (ph : Phase) (s : State) : (goTo ph s).worker.el = s.worker.el := rfl

/-! ### `delay` -/

@[simp] theorem delay_params (t : Nat) (s : State) : (delay t s).params = s.params := rfl
@[simp] theorem delay_lifecycle (t : Nat) (s : State) : (delay t s).lifecycle = s.lifecycle := rfl
@[simp] theorem delay_shutdownReq (t : Nat) (s : State) : (delay t s).shutdownReq = s.shutdownReq := rfl
@[simp] theorem delay_ds (t : Nat) (s : State) : (delay t s).ds = s.ds := rfl
@[simp] theorem delay_gDS (t : Nat) (s : State) : (delay t s).gDS = s.gDS := rfl
@[simp] theorem delay_cq (t : Nat) (s : State) : (delay t s).cq = s.cq := rfl
@[simp] theorem delay_gCQ (t : Nat) (s : State) : (delay t s).gCQ = s.gCQ := rfl
@[simp] theorem delay_worker (t : Nat) (s : State) : (delay t s).worker = s.worker := rfl
@[simp] theorem delay_transport (t : Nat) (s : State) : (delay t s).transport = s.transport := rfl
@[simp] theorem delay_trace (t : Nat) (s : State) : (delay t s).trace = s.trace := rfl
@[simp] theorem delay_actor (t : Nat) (s : State) : (delay t s).actor = s.actor := rfl

@[simp] theorem delay_clock (t : Nat) (s : State) : (delay t s).world.clock = s.world.clock + t := rfl
@[simp] theorem delay_sched (t : Nat) (s : State) : (delay t s).world.sched = s.world.sched := rfl

/-! ### `blockUpTo` -/

@[simp] theorem blockUpTo_params (t : Nat) (s : State) : (blockUpTo t s).params = s.params := rfl
@[simp] theorem blockUpTo_lifecycle (t : Nat) (s : State) : (blockUpTo t s).lifecycle = s.lifecycle := rfl
@[simp] theorem blockUpTo_shutdownReq (t : Nat) (s : State) : (blockUpTo t s).shutdownReq = s.shutdownReq := rfl
@[simp] theorem blockUpTo_ds (t : Nat) (s : State) : (blockUpTo t s).ds = s.ds := rfl
@[simp] theorem blockUpTo_gDS (t : Nat) (s : State) : (blockUpTo t s).gDS = s.gDS := rfl
@[simp] theorem blockUpTo_cq (t : Nat) (s : State) : (blockUpTo t s).cq = s.cq := rfl
@[simp] theorem blockUpTo_gCQ (t : Nat) (s : State) : (blockUpTo t s).gCQ = s.gCQ := rfl
@[simp] theorem blockUpTo_worker (t : Nat) (s : State) : (blockUpTo t s).worker = s.worker := rfl
@[simp] theorem blockUpTo_transport (t : Nat) (s : State) : (blockUpTo t s).transport = s.transport := rfl
@[simp] theorem blockUpTo_trace (t : Nat) (s : State) : (blockUpTo t s).trace = s.trace := rfl
@[simp] theorem blockUpTo_actor (t : Nat) (s : State) : (blockUpTo t s).actor = s.actor := rfl

/-! ### `blockFreely` -/

@[simp] theorem blockFreely_params (s : State) : (blockFreely s).params = s.params := rfl
@[simp] theorem blockFreely_lifecycle (s : State) : (blockFreely s).lifecycle = s.lifecycle := rfl
@[simp] theorem blockFreely_shutdownReq (s : State) : (blockFreely s).shutdownReq = s.shutdownReq := rfl
@[simp] theorem blockFreely_ds (s : State) : (blockFreely s).ds = s.ds := rfl
@[simp] theorem blockFreely_gDS (s : State) : (blockFreely s).gDS = s.gDS := rfl
@[simp] theorem blockFreely_cq (s : State) : (blockFreely s).cq = s.cq := rfl
@[simp] theorem blockFreely_gCQ (s : State) : (blockFreely s).gCQ = s.gCQ := rfl
@[simp] theorem blockFreely_worker (s : State) : (blockFreely s).worker = s.worker := rfl
@[simp] theorem blockFreely_transport (s : State) : (blockFreely s).transport = s.transport := rfl
@[simp] theorem blockFreely_trace (s : State) : (blockFreely s).trace = s.trace := rfl
@[simp] theorem blockFreely_actor (s : State) : (blockFreely s).actor = s.actor := rfl

/-! ### `waitSendComplete` -/

@[simp] theorem waitSendComplete_params (t : Nat) (s : State) : (waitSendComplete t s).params = s.params := rfl
@[simp] theorem waitSendComplete_lifecycle (t : Nat) (s : State) : (waitSendComplete t s).lifecycle = s.lifecycle := rfl
@[simp] theorem waitSendComplete_shutdownReq (t : Nat) (s : State) : (waitSendComplete t s).shutdownReq = s.shutdownReq := rfl
@[simp] theorem waitSendComplete_ds (t : Nat) (s : State) : (waitSendComplete t s).ds = s.ds := rfl
@[simp] theorem waitSendComplete_gDS (t : Nat) (s : State) : (waitSendComplete t s).gDS = s.gDS := rfl
@[simp] theorem waitSendComplete_cq (t : Nat) (s : State) : (waitSendComplete t s).cq = s.cq := rfl
@[simp] theorem waitSendComplete_gCQ (t : Nat) (s : State) : (waitSendComplete t s).gCQ = s.gCQ := rfl
@[simp] theorem waitSendComplete_worker (t : Nat) (s : State) : (waitSendComplete t s).worker = s.worker := rfl
@[simp] theorem waitSendComplete_transport (t : Nat) (s : State) : (waitSendComplete t s).transport = s.transport := rfl
@[simp] theorem waitSendComplete_trace (t : Nat) (s : State) : (waitSendComplete t s).trace = s.trace := rfl
@[simp] theorem waitSendComplete_actor (t : Nat) (s : State) : (waitSendComplete t s).actor = s.actor := rfl

/-! ### `writeBytes` -/

@[simp] theorem writeBytes_params (b : List Byte) (s : State) : (writeBytes b s).params = s.params := rfl
@[simp] theorem writeBytes_lifecycle (b : List Byte) (s : State) : (writeBytes b s).lifecycle = s.lifecycle := rfl
@[simp] theorem writeBytes_shutdownReq (b : List Byte) (s : State) : (writeBytes b s).shutdownReq = s.shutdownReq := rfl
@[simp] theorem writeBytes_ds (b : List Byte) (s : State) : (writeBytes b s).ds = s.ds := rfl
@[simp] theorem writeBytes_gDS (b : List Byte) (s : State) : (writeBytes b s).gDS = s.gDS := rfl
@[simp] theorem writeBytes_cq (b : List Byte) (s : State) : (writeBytes b s).cq = s.cq := rfl
@[simp] theorem writeBytes_gCQ (b : List Byte) (s : State) : (writeBytes b s).gCQ = s.gCQ := rfl
@[simp] theorem writeBytes_worker (b : List Byte) (s : State) : (writeBytes b s).worker = s.worker := rfl
@[simp] theorem writeBytes_transport (b : List Byte) (s : State) : (writeBytes b s).transport = s.transport := rfl
@[simp] theorem writeBytes_world (b : List Byte) (s : State) : (writeBytes b s).world = s.world := rfl
@[simp] theorem writeBytes_actor (b : List Byte) (s : State) : (writeBytes b s).actor = s.actor := rfl

@[simp] theorem writeBytes_written (b : List Byte) (s : State) : (writeBytes b s).trace.written = s.trace.written ++ [b] := rfl
@[simp] theorem writeBytes_events (b : List Byte) (s : State) : (writeBytes b s).trace.events = s.trace.events := rfl
@[simp] theorem writeBytes_replies (b : List Byte) (s : State) : (writeBytes b s).trace.replies = s.trace.replies := rfl

/-! ### `setRx` -/

@[simp] theorem setRx_params (r : List Byte) (s : State) : (setRx r s).params = s.params := rfl
@[simp] theorem setRx_lifecycle (r : List Byte) (s : State) : (setRx r s).lifecycle = s.lifecycle := rfl
@[simp] theorem setRx_shutdownReq (r : List Byte) (s : State) : (setRx r s).shutdownReq = s.shutdownReq := rfl
@[simp] theorem setRx_ds (r : List Byte) (s : State) : (setRx r s).ds = s.ds := rfl
@[simp] theorem setRx_gDS (r : List Byte) (s : State) : (setRx r s).gDS = s.gDS := rfl
@[simp] theorem setRx_cq (r : List Byte) (s : State) : (setRx r s).cq = s.cq := rfl
@[simp] theorem setRx_gCQ (r : List Byte) (s : State) : (setRx r s).gCQ = s.gCQ := rfl
@[simp] theorem setRx_worker (r : List Byte) (s : State) : (setRx r s).worker = s.worker := rfl
@[simp] theorem setRx_world (r : List Byte) (s : State) : (setRx r s).world = s.world := rfl
@[simp] theorem setRx_trace (r : List Byte) (s : State) : (setRx r s).trace = s.trace := rfl
@[simp] theorem setRx_actor (r : List Byte) (s : State) : (setRx r s).actor = s.actor := rfl

@[simp] theorem setRx_rx (r : List Byte) (s : State) : (setRx r s).transport.rx = r := rfl
@[simp] theorem setRx_config (r : List Byte) (s : State) : (setRx r s).transport.config = s.transport.config := rfl

/-! ### `setStore` -/

@[simp] theorem setStore_params (d : DeviceState) (s : State) : (setStore d s).params = s.params := rfl
@[simp] theorem setStore_lifecycle (d : DeviceState) (s : State) : (setStore d s).lifecycle = s.lifecycle := rfl
@[simp] theorem setStore_shutdownReq (d : DeviceState) (s : State) : (setStore d s).shutdownReq = s.shutdownReq := rfl
@[simp] theorem setStore_gDS (d : DeviceState) (s : State) : (setStore d s).gDS = s.gDS := rfl
@[simp] theorem setStore_cq (d : DeviceState) (s : State) : (setStore d s).cq = s.cq := rfl
@[simp] theorem setStore_gCQ (d : DeviceState) (s : State) : (setStore d s).gCQ = s.gCQ := rfl
@[simp] theorem setStore_worker (d : DeviceState) (s : State) : (setStore d s).worker = s.worker := rfl
@[simp] theorem setStore_transport (d : DeviceState) (s : State) : (setStore d s).transport = s.transport := rfl
@[simp] theorem setStore_world (d : DeviceState) (s : State) : (setStore d s).world = s.world := rfl
@[simp] theorem setStore_trace (d : DeviceState) (s : State) : (setStore d s).trace = s.trace := rfl
@[simp] theorem setStore_actor (d : DeviceState) (s : State) : (setStore d s).actor = s.actor := rfl

@[simp] theorem setStore_ds (d : DeviceState) (s : State) : (setStore d s).ds = d := rfl

/-! ### `setQueue` -/

@[simp] theorem setQueue_params (q : List DeviceState) (s : State) : (setQueue q s).params = s.params := rfl
@[simp] theorem setQueue_lifecycle (q : List DeviceState) (s : State) : (setQueue q s).lifecycle = s.lifecycle := rfl
@[simp] theorem setQueue_shutdownReq (q : List DeviceState) (s : State) : (setQueue q s).shutdownReq = s.shutdownReq := rfl
@[simp] theorem setQueue_ds (q : List DeviceState) (s : State) : (setQueue q s).ds = s.ds := rfl
@[simp] theorem setQueue_gDS (q : List DeviceState) (s : State) : (setQueue q s).gDS = s.gDS := rfl
@[simp] theorem setQueue_gCQ (q : List DeviceState) (s : State) : (setQueue q s).gCQ = s.gCQ := rfl
@[simp] theorem setQueue_worker (q : List DeviceState) (s : State) : (setQueue q s).worker = s.worker := rfl
@[simp] theorem setQueue_transport (q : List DeviceState) (s : State) : (setQueue q s).transport = s.transport := rfl
@[simp] theorem setQueue_world (q : List DeviceState) (s : State) : (setQueue q s).world = s.world := rfl
@[simp] theorem setQueue_trace (q : List DeviceState) (s : State) : (setQueue q s).trace = s.trace := rfl
@[simp] theorem setQueue_actor (q : List DeviceState) (s : State) : (setQueue q s).actor = s.actor := rfl

@[simp] theorem setQueue_cq (q : List DeviceState) (s : State) : (setQueue q s).cq = q := rfl

/-! ### `settleDS` -/

@[simp] theorem settleDS_params (s : State) : (settleDS s).params = s.params := by
  unfold settleDS
  split <;> rfl
@[simp] theorem settleDS_lifecycle (s : State) : (settleDS s).lifecycle = s.lifecycle := by
  unfold settleDS
  split <;> rfl
@[simp] theorem settleDS_shutdownReq (s : State) : (settleDS s).shutdownReq = s.shutdownReq := by
  unfold settleDS
  split <;> rfl
@[simp] theorem settleDS_ds (s : State) : (settleDS s).ds = s.ds := by
  unfold settleDS
  split <;> rfl
@[simp] theorem settleDS_cq (s : State) : (settleDS s).cq = s.cq := by
  unfold settleDS
  split <;> rfl
@[simp] theorem settleDS_gCQ (s : State) : (settleDS s).gCQ = s.gCQ := by
  unfold settleDS
  split <;> rfl
@[simp] theorem settleDS_worker (s : State) : (settleDS s).worker = s.worker := by
  unfold settleDS
  split <;> rfl
@[simp] theorem settleDS_transport (s : State) : (settleDS s).transport = s.transport := by
  unfold settleDS
  split <;> rfl
@[simp] theorem settleDS_world (s : State) : (settleDS s).world = s.world := by
  unfold settleDS
  split <;> rfl
@[simp] theorem settleDS_actor (s : State) : (settleDS s).actor = s.actor := by
  unfold settleDS
  split <;> rfl

@[simp] theorem settleDS_gDS (s : State) : (settleDS s).gDS = none := by
  unfold settleDS
  split <;> simp_all
@[simp] theorem settleDS_events (s : State) : (settleDS s).trace.events = s.trace.events := by
  unfold settleDS
  split <;> rfl
@[simp] theorem settleDS_written (s : State) : (settleDS s).trace.written = s.trace.written := by
  unfold settleDS
  split <;> rfl

/-! ### `settleCQ` -/

@[simp] theorem settleCQ_params (s : State) : (settleCQ s).params = s.params := by
  unfold settleCQ
  split <;> rfl
@[simp] theorem settleCQ_lifecycle (s : State) : (settleCQ s).lifecycle = s.lifecycle := by
  unfold settleCQ
  split <;> rfl
@[simp] theorem settleCQ_shutdownReq (s : State) : (settleCQ s).shutdownReq = s.shutdownReq := by
  unfold settleCQ
  split <;> rfl
@[simp] theorem settleCQ_ds (s : State) : (settleCQ s).ds = s.ds := by
  unfold settleCQ
  split <;> rfl
@[simp] theorem settleCQ_gDS (s : State) : (settleCQ s).gDS = s.gDS := by
  unfold settleCQ
  split <;> rfl
@[simp] theorem settleCQ_worker (s : State) : (settleCQ s).worker = s.worker := by
  unfold settleCQ
  split <;> rfl
@[simp] theorem settleCQ_transport (s : State) : (settleCQ s).transport = s.transport := by
  unfold settleCQ
  split <;> rfl
@[simp] theorem settleCQ_world (s : State) : (settleCQ s).world = s.world := by
  unfold settleCQ
  split <;> rfl
@[simp] theorem settleCQ_actor (s : State) : (settleCQ s).actor = s.actor := by
  unfold settleCQ
  split <;> rfl

@[simp] theorem settleCQ_gCQ (s : State) : (settleCQ s).gCQ = none := by
  unfold settleCQ
  split <;> simp_all
@[simp] theorem settleCQ_events (s : State) : (settleCQ s).trace.events = s.trace.events := by
  unfold settleCQ
  split <;> rfl
@[simp] theorem settleCQ_written (s : State) : (settleCQ s).trace.written = s.trace.written := by
  unfold settleCQ
  split <;> rfl

end Sys2Proof.Machine
end

