-- ==== Sys2Proof/Laws/Ops.lean ====
section
/-! SUPPORT. One lemma per shared operation: everything it can do. -/
namespace Sys2Proof.Machine

/-! ## Outcomes -/

theorem whenRunning_of_running {s : State} (h : s.lifecycle = .running) (r : Result) :
    whenRunning s r = r := by simp [whenRunning, h]

theorem whenRunning_of_not_running {s : State} (h : s.lifecycle ≠ .running) (r : Result) :
    whenRunning s r = .fault (.notRunning s.lifecycle) := by simp [whenRunning, h]

/-- A next state comes out of `whenRunning` only while `Running`. -/
theorem whenRunning_next {s t : State} {r : Result} :
    whenRunning s r = .next t ↔ s.lifecycle = .running ∧ r = .next t := by
  unfold whenRunning
  split <;> simp_all

theorem whenBetweenTicks_of_idle {s : State} (h : s.lifecycle = .running) (hi : s.worker.phase = .idle)
    (r : Result) : whenBetweenTicks s r = r := by simp [whenBetweenTicks, whenRunning, h, hi]

/-- A next state comes out of `whenBetweenTicks` only while `Running` and between ticks. -/
theorem whenBetweenTicks_next {s t : State} {r : Result} :
    whenBetweenTicks s r = .next t ↔
      s.lifecycle = .running ∧ s.worker.phase = .idle ∧ r = .next t := by
  unfold whenBetweenTicks
  rw [whenRunning_next]
  split <;> simp_all

/-! ## The environment's draws -/

/-- The next wait is the head of `waits`, or a free value when none is given; nothing but the draw is used up. -/
theorem nextWait_cases (w : World) :
    (∃ d ds, w.waits = d :: ds ∧ nextWait w = (d, { w with waits := ds })) ∨
    (w.waits = [] ∧ nextWait w = (Config.freeWait w.draws, { w with draws := w.draws + 1 })) := by
  unfold nextWait
  cases h : w.waits with
  | nil => exact .inr ⟨rfl, rfl⟩
  | cons d ds => exact .inl ⟨d, ds, rfl, rfl⟩

theorem nextWait_of_cons {w : World} {d : Nat} {ds : List Nat} (h : w.waits = d :: ds) :
    nextWait w = (d, { w with waits := ds }) := by simp [nextWait, h]

@[simp] theorem nextWait_clock (w : World) : (nextWait w).2.clock = w.clock := by
  unfold nextWait
  split <;> rfl

@[simp] theorem nextWait_sched (w : World) : (nextWait w).2.sched = w.sched := by
  unfold nextWait
  split <;> rfl

@[simp] theorem nextBurst_clock (w : World) : (nextBurst w).2.clock = w.clock := by
  unfold nextBurst
  split <;> rfl

@[simp] theorem nextBurst_sched (w : World) : (nextBurst w).2.sched = w.sched := by
  unfold nextBurst
  split <;> rfl

@[simp] theorem pass_clock (w : World) (n : Nat) : (w.pass n).clock = w.clock + n := rfl
@[simp] theorem pass_sched (w : World) (n : Nat) : (w.pass n).sched = w.sched := rfl

/-- A blocking call ends within its bound (R37). -/
theorem blockUpTo_clock_bounds (t : Nat) (s : State) :
    s.world.clock ≤ (blockUpTo t s).world.clock ∧ (blockUpTo t s).world.clock ≤ s.world.clock + t := by
  simp [blockUpTo]

@[simp] theorem blockUpTo_sched (t : Nat) (s : State) : (blockUpTo t s).world.sched = s.world.sched := by
  simp [blockUpTo]

@[simp] theorem waitSendComplete_sched (t : Nat) (s : State) :
    (waitSendComplete t s).world.sched = s.world.sched := by
  simp [waitSendComplete]

theorem waitSendComplete_clock_bounds (t : Nat) (s : State) :
    s.world.clock ≤ (waitSendComplete t s).world.clock ∧
      (waitSendComplete t s).world.clock ≤ s.world.clock + t := blockUpTo_clock_bounds t s

theorem blockFreely_clock (s : State) :
    (blockFreely s).world.clock = s.world.clock + (nextWait s.world).1 := by simp [blockFreely]

@[simp] theorem blockFreely_sched (s : State) : (blockFreely s).world.sched = s.world.sched := by
  simp [blockFreely]

/-! ## The transport -/

/-- `ReadByte` answers the oldest waiting byte and consumes it, or `none` when none waits; it touches the
receive buffer and the environment's draws, nothing else. -/
theorem readByte_cases (t : Nat) (s : State) :
    (s.transport.rx = [] ∧ readByte t s = (none, blockUpTo t s)) ∨
    (∃ b rest, s.transport.rx = b :: rest ∧
      readByte t s = (some b, blockUpTo t (setRx rest s))) := by
  unfold readByte
  cases h : s.transport.rx with
  | nil => exact .inl ⟨rfl, rfl⟩
  | cons b rest => exact .inr ⟨b, rest, rfl, rfl⟩

/-- Splitting the receive buffer: what `ReadBytes` answers and what it leaves make up what waited. -/
theorem readBytes_append (n t : Nat) (s : State) :
    (readBytes n t s).1 ++ (readBytes n t s).2.transport.rx = s.transport.rx := by
  simp [readBytes]

theorem readBytes_length_le (n t : Nat) (s : State) : (readBytes n t s).1.length ≤ n := by
  simp only [readBytes, List.length_take, blockUpTo_transport]
  omega

/-- `ReadBytes` changes the receive buffer and the environment's part, nothing else. -/
theorem readBytes_snd (n t : Nat) (s : State) :
    (readBytes n t s).2 =
      setRx (s.transport.rx.drop (readBytes n t s).1.length)
        { s with world := (readBytes n t s).2.world } := by
  have h : s.transport.rx.drop (readBytes n t s).1.length = (readBytes n t s).2.transport.rx := by
    conv_lhs => rw [← readBytes_append n t s]
    exact List.drop_left
  rw [h]
  simp [readBytes, blockUpTo, setRx]

theorem readBytes_clock_bounds (n t : Nat) (s : State) :
    s.world.clock ≤ (readBytes n t s).2.world.clock ∧
      (readBytes n t s).2.world.clock ≤ s.world.clock + t := by
  simp [readBytes, blockUpTo]

@[simp] theorem readBytes_sched (n t : Nat) (s : State) :
    (readBytes n t s).2.world.sched = s.world.sched := by
  simp [readBytes]

/-- With a burst at least as long as the count, as many bytes come as are waiting. -/
theorem readBytes_of_burst {n t k : Nat} {ks : List Nat} {s : State} (h : s.world.bursts = k :: ks)
    (hk : n ≤ k) : (readBytes n t s).1 = s.transport.rx.take n := by
  have hb : (blockUpTo t s).world.bursts = k :: ks := by
    simp only [blockUpTo, World.pass]
    rcases nextWait_cases s.world with ⟨d, ds, -, e⟩ | ⟨-, e⟩ <;> simp [e, h]
  simp [readBytes, nextBurst, hb, Nat.min_eq_left hk]

/-! ## The guards, the store and the queue -/

theorem settleDS_of_free {s : State} (h : s.gDS = none) : settleDS s = s := by simp [settleDS, h]

theorem settleCQ_of_free {s : State} (h : s.gCQ = none) : settleCQ s = s := by simp [settleCQ, h]

/-- Waiting for the store's guard: nothing, or the caller inside `GetStatus` gets its copy. -/
theorem settleDS_replies (s : State) :
    (settleDS s).trace.replies =
      s.trace.replies ++ (s.gDS.map fun n => (Agent.caller n, Answer.state s.ds)).toList := by
  unfold settleDS
  cases h : s.gDS <;> simp

/-- Waiting for the queue's guard: nothing, or the entry of the caller inside `RequestChange` joins the tail. -/
theorem settleCQ_cq (s : State) :
    (settleCQ s).cq = s.cq ++ (s.gCQ.map fun h => h.2).toList := by
  unfold settleCQ
  cases h : s.gCQ <;> simp

theorem settleCQ_replies (s : State) :
    (settleCQ s).trace.replies =
      s.trace.replies ++ (s.gCQ.map fun h => (Agent.caller h.1, Answer.unit)).toList := by
  unfold settleCQ
  cases h : s.gCQ <;> simp

/-- `ApplyUpdate` writes the interpretation of the frame over the prior state and changes nothing else
but the guard it waited for. -/
theorem applyUpdate_eq (f : Frame) (s : State) :
    applyUpdate f s = setStore (interpretStatusFrame f s.ds).1 (settleDS s) := by
  simp [applyUpdate]

/-- `Enqueue` adds exactly one entry, at the tail. -/
theorem enqueue_eq (d : DeviceState) (s : State) :
    enqueue d s = setQueue ((settleCQ s).cq ++ [d]) (settleCQ s) := rfl

/-- `TryDequeue` answers the head and removes it, or answers `none` from an empty queue. -/
theorem tryDequeue_cases (s : State) :
    ((settleCQ s).cq = [] ∧ tryDequeue s = (none, blockFreely (settleCQ s))) ∨
    (∃ d ds, (settleCQ s).cq = d :: ds ∧
      tryDequeue s = (some d, setQueue ds (blockFreely (settleCQ s)))) := by
  unfold tryDequeue
  cases h : (settleCQ s).cq with
  | nil => exact .inl ⟨rfl, by simp [h]⟩
  | cons d ds => exact .inr ⟨d, ds, rfl, by simp [h]⟩

theorem nonEmpty_fst (s : State) : (nonEmpty s).1 = true ↔ (settleCQ s).cq ≠ [] := by
  simp [nonEmpty]

@[simp] theorem nonEmpty_snd (s : State) : (nonEmpty s).2 = settleCQ s := rfl

/-! ## Steps 4 and 5 of a tick -/

/-- Everything step 4 can do (R107 to R117): nothing for a frame that is no opportunity; only the wait for
the queue's guard when the queue is empty; else the head is popped and is either written or lost, by
the gate; a lost request is discarded. -/
theorem opportunityStep_cases (f : Frame) (s : State) :
    (isOpportunity s.params f = false ∧ opportunityStep f s = s) ∨
    (isOpportunity s.params f = true ∧ (settleCQ s).cq = [] ∧ opportunityStep f s = settleCQ s) ∨
    (∃ req rest, isOpportunity s.params f = true ∧ (settleCQ s).cq = req :: rest ∧
      (nextWait s.world).1 ≤ tBudget ∧
      opportunityStep f s =
        waitSendComplete s.params.tTxWait (writeBytes (encodeCommandFrame s.params req)
          (delay s.params.tSettle (setQueue rest (blockFreely (settleCQ s)))))) ∨
    (∃ req rest, isOpportunity s.params f = true ∧ (settleCQ s).cq = req :: rest ∧
      tBudget < (nextWait s.world).1 ∧
      opportunityStep f s =
        discardRequest (emit [.sendWindowMissed req (nextWait s.world).1]
          (setQueue rest (blockFreely (settleCQ s))))) := by
  cases ho : isOpportunity s.params f with
  | false => exact .inl ⟨rfl, by simp [opportunityStep, ho]⟩
  | true =>
    cases hq : (settleCQ s).cq with
    | nil =>
      refine .inr (.inl ⟨rfl, rfl, ?_⟩)
      simp [opportunityStep, ho, nonEmpty, hq]
    | cons req rest =>
      have he : (blockFreely (settleCQ s)).world.clock - s.world.clock = (nextWait s.world).1 := by
        simp [blockFreely_clock]
      have hs : settleCQ (settleCQ s) = settleCQ s := settleCQ_of_free (settleCQ_gCQ s)
      by_cases hg : (nextWait s.world).1 ≤ tBudget
      · refine .inr (.inr (.inl ⟨req, rest, rfl, rfl, hg, ?_⟩))
        simp only [opportunityStep, ho, nonEmpty, hq, tryDequeue, hs, blockFreely_cq, now,
          setQueue_world, settleCQ_world, he, hg]
        simp
      · refine .inr (.inr (.inr ⟨req, rest, rfl, rfl, by omega, ?_⟩))
        simp only [opportunityStep, ho, nonEmpty, hq, tryDequeue, hs, blockFreely_cq, now,
          setQueue_world, settleCQ_world, he, hg]
        simp

/-- Step 4 never touches the store, its guard, the parameters or the receive buffer. -/
@[simp] theorem opportunityStep_ds (f : Frame) (s : State) : (opportunityStep f s).ds = s.ds := by
  rcases opportunityStep_cases f s with ⟨-, e⟩ | ⟨-, -, e⟩ | ⟨_, _, -, -, -, e⟩ | ⟨_, _, -, -, -, e⟩ <;>
    simp [e]

@[simp] theorem opportunityStep_gDS (f : Frame) (s : State) : (opportunityStep f s).gDS = s.gDS := by
  rcases opportunityStep_cases f s with ⟨-, e⟩ | ⟨-, -, e⟩ | ⟨_, _, -, -, -, e⟩ | ⟨_, _, -, -, -, e⟩ <;>
    simp [e]

@[simp] theorem opportunityStep_params (f : Frame) (s : State) :
    (opportunityStep f s).params = s.params := by
  rcases opportunityStep_cases f s with ⟨-, e⟩ | ⟨-, -, e⟩ | ⟨_, _, -, -, -, e⟩ | ⟨_, _, -, -, -, e⟩ <;>
    simp [e]

@[simp] theorem opportunityStep_transport (f : Frame) (s : State) :
    (opportunityStep f s).transport = s.transport := by
  rcases opportunityStep_cases f s with ⟨-, e⟩ | ⟨-, -, e⟩ | ⟨_, _, -, -, -, e⟩ | ⟨_, _, -, -, -, e⟩ <;>
    simp [e]

/-- Step 5 never touches the queue or what is written. -/
@[simp] theorem statusStep_cq (f : Frame) (s : State) : (statusStep f s).cq = s.cq := by
  unfold statusStep
  split <;> simp [statusUpdate, applyUpdate]

@[simp] theorem statusStep_written (f : Frame) (s : State) :
    (statusStep f s).trace.written = s.trace.written := by
  unfold statusStep
  split <;> simp [statusUpdate, applyUpdate]

/-- Everything a status update does (R118, R91, R131): the store, the guard that was waited for with the
copy it delivers, and the reports. -/
theorem statusUpdate_eq (f : Frame) (s : State) :
    statusUpdate f s =
      emit (changedEvents s.ds (interpretStatusFrame f s.ds).1 (interpretStatusFrame f s.ds).2)
        (setStore (interpretStatusFrame f s.ds).1 (settleDS s)) := by
  simp [statusUpdate, applyUpdate_eq]

theorem statusStep_of_status {f : Frame} {s : State} (h : isStatus s.params f = true) :
    statusStep f s = statusUpdate f s := by simp [statusStep, h]

theorem statusStep_of_not_status {f : Frame} {s : State} (h : isStatus s.params f = false) :
    statusStep f s = s := by simp [statusStep, h]

theorem statusStep_ds (f : Frame) (s : State) :
    (statusStep f s).ds = if isStatus s.params f then (interpretStatusFrame f s.ds).1 else s.ds := by
  unfold statusStep
  split <;> simp_all [statusUpdate, applyUpdate]

end Sys2Proof.Machine
end

