-- ==== Sys2Proof/Laws/Codec.lean ====
section
/-! SUPPORT. The codec's lemmas: bodies of 13 bytes, what decoding and interpreting answer. -/
namespace Sys2Proof

/-- A body of 13 bytes is its eleven covered bytes, its checksum and its terminator. -/
theorem body_eq_of_length {raw : List Byte} (h : raw.length = 13) :
    raw = (frameOfBody raw).covered ++ [byteAt raw 11, byteAt raw 12] := by
  match raw, h with
  | [_, _, _, _, _, _, _, _, _, _, _, _, _], _ => rfl

theorem covered_length (f : Frame) : f.covered.length = 11 := rfl

/-- The covered bytes of a decoded body are its first eleven. -/
theorem covered_frameOfBody {raw : List Byte} (h : 11 ≤ raw.length) :
    (frameOfBody raw).covered = raw.take 11 := by
  match raw, h with
  | _ :: _ :: _ :: _ :: _ :: _ :: _ :: _ :: _ :: _ :: _ :: _, _ => rfl

/-- Only the first eleven bytes of a buffer are summed. -/
theorem checksum_append {b rest : List Byte} (h : b.length = 11) : checksum (b ++ rest) = xorAll b := by
  simp [checksum, chkSpan, ← h]

@[simp] theorem checksum_covered (f : Frame) : checksum f.covered = xorAll f.covered := by
  have := checksum_append (covered_length f) (rest := [])
  simpa using this

/-- What `DecodeStatusFrame` answers on a body given by its parts. -/
theorem decodeStatusFrame_parts (p : Params) (f : Frame) (c e : Byte) :
    decodeStatusFrame p (f.covered ++ [c, e]) =
      if e ≠ p.endMark then .err .invalidEnd
      else if c ≠ xorAll f.covered then .err .checksumMismatch
      else .ok { f with checksum := c } := by
  have hc : checksum (f.covered ++ [c, e]) = xorAll f.covered := checksum_append (covered_length f)
  unfold decodeStatusFrame
  rw [hc]
  rfl

/-- Everything `DecodeStatusFrame` can answer. -/
theorem decodeStatusFrame_cases (p : Params) (raw : List Byte) :
    (byteAt raw 12 ≠ p.endMark ∧ decodeStatusFrame p raw = .err .invalidEnd) ∨
    (byteAt raw 12 = p.endMark ∧ byteAt raw 11 ≠ xorAll (raw.take 11) ∧
      decodeStatusFrame p raw = .err .checksumMismatch) ∨
    (byteAt raw 12 = p.endMark ∧ byteAt raw 11 = xorAll (raw.take 11) ∧
      decodeStatusFrame p raw = .ok (frameOfBody raw)) := by
  have hc : checksum raw = xorAll (raw.take 11) := rfl
  unfold decodeStatusFrame
  rw [hc]
  by_cases h1 : byteAt raw 12 = p.endMark
  · by_cases h2 : byteAt raw 11 = xorAll (raw.take 11)
    · exact .inr (.inr ⟨h1, h2, by simp only [h1, h2, ne_eq, not_true_eq_false, if_false]⟩)
    · exact .inr (.inl ⟨h1, h2, by simp only [h1, h2, ne_eq, not_true_eq_false, if_false, not_false_eq_true, if_true]⟩)
  · exact .inl ⟨h1, by simp only [h1, ne_eq, not_false_eq_true, if_true]⟩

/-- The body of a valid wire frame decodes to its record. -/
theorem decode_wireFrame_body (p : Params) (a b c : Byte) (d : Data) :
    decodeStatusFrame p ((wireFrame p a b c d).drop 1) = .ok (Machine.recordOf a b c d) := by
  have := decodeStatusFrame_parts p (Machine.recordOf a b c d)
    (checksum ([a, b, c] ++ d.toList)) p.endMark
  rw [show checksum ([a, b, c] ++ d.toList) = xorAll (Machine.recordOf a b c d).covered from
    checksum_covered (Machine.recordOf a b c d)] at this
  simp only [ne_eq, not_true_eq_false, if_false] at this
  exact this

theorem wireFrame_length (p : Params) (a b c : Byte) (d : Data) : (wireFrame p a b c d).length = 14 := rfl

/-- A valid wire frame is decoded by its record's row. -/
theorem decode_wireFrame (p : Params) (a b c : Byte) (d : Data) (rest : List Byte) :
    decode p (wireFrame p a b c d ++ rest) = .instr (rowOfFrame p (Machine.recordOf a b c d)) rest := by
  have hb := decode_wireFrame_body p a b c d
  have hl : ((wireFrame p a b c d).drop 1).length = bodyLen := rfl
  have hw : wireFrame p a b c d ++ rest = p.startMark :: ((wireFrame p a b c d).drop 1 ++ rest) := rfl
  rw [hw]
  simp only [decode, ne_eq, not_true_eq_false, if_false, List.length_append, hl]
  rw [if_neg (by omega), ← hl, List.take_left, List.drop_left, rowOfBody, hb]

namespace Machine

/-- The mode a raw value names, and which values name one (R74). -/
theorem modeOf_isSome {v : Byte} : (modeOf v).isSome = true ↔ v.toNat ≤ 4 := by
  unfold modeOf
  split <;> simp_all
  omega

theorem modeOf_ne_unknown {v : Byte} {m : Mode} (h : modeOf v = some m) : m ≠ .unknown := by
  unfold modeOf at h
  split at h <;> simp_all <;> subst h <;> simp

theorem powerOf_ne_unknown (b : Byte) : powerOf b ≠ .unknown := by
  unfold powerOf
  split <;> simp

theorem fanOf_ne_unknown (b : Byte) : fanOf b ≠ .unknown := by
  simp only [fanOf]
  split <;> [simp; split] <;> [simp; split] <;> simp

/-- R76: the temperature is the natural number 9 to 40, and never wraps. -/
theorem temperatureOf_toNat (b : Byte) :
    (temperatureOf b).toNat = (b &&& 0x1F).toNat + 9 := by
  have h : (b &&& 0x1F).toNat ≤ 31 := by
    rw [BitVec.toNat_and]
    exact Nat.and_le_right
  simp only [temperatureOf, tempMask, tempOffset, BitVec.toNat_ofNat]
  omega

theorem temperatureOf_bounds (b : Byte) :
    9 ≤ (temperatureOf b).toNat ∧ (temperatureOf b).toNat ≤ 40 := by
  have h : (b &&& 0x1F).toNat ≤ 31 := by
    rw [BitVec.toNat_and]
    exact Nat.and_le_right
  rw [temperatureOf_toNat]
  omega

/-- The state command `0x53` gives: the mode of the raw value, or the prior state. -/
theorem interpret53_fst (d : Data) (prior : DeviceState) :
    (interpret53 d prior).1 = { prior with mode := (modeOf d.d7).getD prior.mode } := by
  unfold interpret53
  split
  · rename_i m h
    split
    · simp [h]
    · rename_i hm
      have : m = prior.mode := not_not.mp hm
      simp [h, this]
  · rename_i h
    simp [h]

/-- Everything the interpretation of a frame can make of the prior state, by the command. -/
theorem interpretStatusFrame_cases (f : Frame) (prior : DeviceState) :
    (f.command = 0x53 ∧ interpretStatusFrame f prior = interpret53 f.data prior) ∨
    (f.command = 0x52 ∧ interpretStatusFrame f prior = interpret52 f.data prior) ∨
    (f.command ≠ 0x53 ∧ f.command ≠ 0x52 ∧ interpretStatusFrame f prior = (prior, Changed.none)) := by
  unfold interpretStatusFrame
  by_cases h1 : f.command = cmdMode
  · exact .inl ⟨h1, if_pos h1⟩
  · by_cases h2 : f.command = cmdStatus
    · exact .inr (.inl ⟨h2, by rw [if_neg h1, if_pos h2]⟩)
    · exact .inr (.inr ⟨h1, h2, by rw [if_neg h1, if_neg h2]; rfl⟩)

/-- The new state of an interpretation: the four fields, known ones never lost. -/
theorem interpretStatusFrame_known (f : Frame) (prior : DeviceState) :
    (prior.power ≠ .unknown → (interpretStatusFrame f prior).1.power ≠ .unknown) ∧
    (prior.mode ≠ .unknown → (interpretStatusFrame f prior).1.mode ≠ .unknown) ∧
    (prior.fanSpeed ≠ .unknown → (interpretStatusFrame f prior).1.fanSpeed ≠ .unknown) := by
  rcases interpretStatusFrame_cases f prior with ⟨-, e⟩ | ⟨-, e⟩ | ⟨-, -, e⟩
  · rw [e, interpret53_fst]
    refine ⟨id, fun h => ?_, id⟩
    cases hm : modeOf f.data.d7 with
    | none => simpa using h
    | some m => simpa using modeOf_ne_unknown hm
  · rw [e]
    exact ⟨fun _ => powerOf_ne_unknown _, id, fun _ => fanOf_ne_unknown _⟩
  · rw [e]
    exact ⟨id, id, id⟩

end Machine
end Sys2Proof
end

