-- ==== Sys2Proof/Laws/Tick.lean ====
section
/-! SUPPORT. What a tick can do: what it takes from the transport, and what the classification of a decoded
frame makes of the state. -/
namespace Sys2Proof.Machine

/-- No entry and no waiting entry: the queue is empty and its guard free. -/
theorem queue_free_of_nil {s : State} (h : s.cq ++ waitingEntry s = []) : s.cq = [] ∧ s.gCQ = none := by
  simp only [waitingEntry, List.append_eq_nil_iff, Option.toList_eq_nil_iff, Option.map_eq_none_iff] at h
  exact h

theorem settleCQ_cq_waiting (s : State) : (settleCQ s).cq = s.cq ++ waitingEntry s := settleCQ_cq s

/-- The three things a tick can take from the transport (R101 to R105), with what it makes of them. -/
theorem tickThrough_cases (s : State) :
    (s.transport.rx = [] ∧ fetch s = ([], blockUpTo s.params.tPoll s) ∧
      tickThrough s = endTick (blockUpTo s.params.tPoll s)) ∨
    (∃ b rest, s.transport.rx = b :: rest ∧ b ≠ s.params.startMark ∧
      fetch s = ([b], blockUpTo s.params.tPoll (setRx rest s)) ∧
      tickThrough s = endTick (blockUpTo s.params.tPoll (setRx rest s))) ∨
    (∃ rest raw s2, s.transport.rx = s.params.startMark :: rest ∧
      readBytes bodyLen s.params.tBody (blockUpTo s.params.tPoll (setRx rest s)) = (raw, s2) ∧
      fetch s = (s.params.startMark :: raw, s2) ∧
      tickThrough s = withBody raw s2) := by
  rcases readByte_cases s.params.tPoll s with ⟨h, e⟩ | ⟨b, rest, h, e⟩
  · exact .inl ⟨h, by simp [fetch, e], by simp [tickThrough, e]⟩
  · by_cases hb : b = s.params.startMark
    · subst hb
      refine .inr (.inr ⟨rest, (readBytes bodyLen s.params.tBody (blockUpTo s.params.tPoll (setRx rest s))).1,
        (readBytes bodyLen s.params.tBody (blockUpTo s.params.tPoll (setRx rest s))).2, h, rfl, ?_, ?_⟩)
      · simp only [fetch, e, ne_eq, blockUpTo_params, setRx_params, not_true_eq_false, if_false]
      · simp only [tickThrough, e, ne_eq, blockUpTo_params, setRx_params, not_true_eq_false, if_false]
    · exact .inr (.inl ⟨b, rest, h, hb, by simp [fetch, e, hb], by simp [tickThrough, e, hb]⟩)

/-- The four things a tick can do with the bytes after a start marker. -/
theorem withBody_cases (raw : List Byte) (s : State) :
    (raw.length < bodyLen ∧ withBody raw s = raise (.truncatedFrame raw.length) s) ∨
    (bodyLen ≤ raw.length ∧ decodeStatusFrame s.params raw = .err .invalidEnd ∧
      withBody raw s = raise (.invalidTerminator raw) s) ∨
    (bodyLen ≤ raw.length ∧ decodeStatusFrame s.params raw = .err .checksumMismatch ∧
      withBody raw s = raise (.checksumMismatch raw) s) ∨
    (bodyLen ≤ raw.length ∧ ∃ f, decodeStatusFrame s.params raw = .ok f ∧
      withBody raw s = classified f s) := by
  unfold withBody
  by_cases h : raw.length < bodyLen
  · exact .inl ⟨h, if_pos h⟩
  · rw [if_neg h]
    rcases decodeStatusFrame_cases s.params raw with ⟨-, e⟩ | ⟨-, -, e⟩ | ⟨-, -, e⟩ <;> rw [e]
    · exact .inr (.inl ⟨by omega, rfl, rfl⟩)
    · exact .inr (.inr (.inl ⟨by omega, rfl, rfl⟩))
    · exact .inr (.inr (.inr ⟨by omega, _, rfl, rfl⟩))

/-- What the body read of a tick leaves: the rest of the buffer, and everything but the buffer and the
environment's part as it was. -/
theorem bodyRead_eq {s s2 : State} {rest raw : List Byte}
    (h : readBytes bodyLen s.params.tBody (blockUpTo s.params.tPoll (setRx rest s)) = (raw, s2)) :
    rest = raw ++ s2.transport.rx ∧ raw.length ≤ bodyLen ∧
      s2 = setRx s2.transport.rx { s with world := s2.world } ∧
      s2.world.sched = s.world.sched ∧ s.world.clock ≤ s2.world.clock := by
  have ha := readBytes_append bodyLen s.params.tBody (blockUpTo s.params.tPoll (setRx rest s))
  have hl := readBytes_length_le bodyLen s.params.tBody (blockUpTo s.params.tPoll (setRx rest s))
  have hs := readBytes_sched bodyLen s.params.tBody (blockUpTo s.params.tPoll (setRx rest s))
  have hc := readBytes_clock_bounds bodyLen s.params.tBody (blockUpTo s.params.tPoll (setRx rest s))
  have hb := blockUpTo_clock_bounds s.params.tPoll (setRx rest s)
  have he := readBytes_snd bodyLen s.params.tBody (blockUpTo s.params.tPoll (setRx rest s))
  rw [h] at ha hl hs hc he
  simp only [blockUpTo_transport, setRx_rx, blockUpTo_sched, setRx_world] at ha hl hs hc hb he
  refine ⟨ha.symm, hl, ?_, hs, Nat.le_trans hb.1 hc.1⟩
  conv_lhs => rw [he]
  rw [← ha, List.drop_left]
  simp [setRx, blockUpTo]

/-- Step 5 leaves the queue, the transport and the environment alone. -/
theorem statusStep_frame (f : Frame) (s : State) :
    SameQueue s (statusStep f s) ∧ SameControl s (statusStep f s) ∧
      (statusStep f s).transport = s.transport ∧ (statusStep f s).world = s.world ∧
      (statusStep f s).worker = s.worker ∧ (statusStep f s).trace.written = s.trace.written := by
  unfold statusStep
  split <;> simp [statusUpdate_eq, SameQueue, SameControl]

/-- What both classifications of a frame do beside the store: the tick ends, and the queue and the bus are
as before unless the frame is an opportunity, which takes the head and may write its frame. -/
theorem classified_frame (f : Frame) (s : State) :
    (classified f s).worker.phase = .idle ∧ SameControl s (classified f s) ∧
      (classified f s).transport = s.transport ∧ TimePassed s (classified f s) ∧
      (SameQueue s (classified f s) ∧ (classified f s).trace.written = s.trace.written ∨
        (classified f s).gCQ = none ∧ ∃ req, s.cq ++ waitingEntry s = req :: (classified f s).cq ∧
          isOpportunity s.params f = true ∧
          ((classified f s).trace.written = s.trace.written ∨
            (classified f s).trace.written = s.trace.written ++ [encodeCommandFrame s.params req])) := by
  obtain ⟨hq5, hc5, ht5, hw5, -, hn5⟩ := statusStep_frame f (opportunityStep f s)
  simp only [SameQueue, SameControl] at hq5 hc5
  simp only [classified, SameControl, SameQueue, TimePassed, endTick_cq, endTick_gCQ, endTick_trace,
    endTick_phase, endTick_params, endTick_lifecycle, endTick_shutdownReq, endTick_actor,
    endTick_transport, endTick_sched, endTick_clock, hq5, hc5, ht5, hw5, hn5]
  rcases opportunityStep_cases f s with ⟨-, e⟩ | ⟨-, hq, e⟩ | ⟨r, rs, ho, hq, -, e⟩ | ⟨r, rs, ho, hq, -, e⟩ <;>
    rw [e]
  · simp
  · rw [settleCQ_cq_waiting] at hq
    simp [settleCQ_of_free (queue_free_of_nil hq).2]
  · rw [settleCQ_cq_waiting] at hq
    have hclk := (waitSendComplete_clock_bounds s.params.tTxWait (writeBytes (encodeCommandFrame s.params r)
      (delay s.params.tSettle (setQueue rs (blockFreely (settleCQ s)))))).1
    simp only [writeBytes_world, delay_clock, setQueue_world, blockFreely_clock, settleCQ_world] at hclk
    simp only [hq, ho]
    simp
    omega
  · rw [settleCQ_cq_waiting] at hq
    simp [hq, ho, blockFreely_clock]

/-- Both classifications act on the store by the status test alone (R119). -/
theorem classified_ds (f : Frame) (s : State) :
    (classified f s).ds = if isStatus s.params f then (interpretStatusFrame f s.ds).1 else s.ds := by
  simp [classified, statusStep_ds]

/-- The `Changed` events of an interpretation are those of the fields that differ (R131, R22). -/
theorem changedEvents_interpret (f : Frame) (d : DeviceState) :
    changedEvents d (interpretStatusFrame f d).1 (interpretStatusFrame f d).2 =
      (fun t : DeviceState =>
        (if t.power = d.power then [] else [.changedPower d.power t.power]) ++
        (if t.mode = d.mode then [] else [.changedMode d.mode t.mode]) ++
        (if t.fanSpeed = d.fanSpeed then [] else [.changedFan d.fanSpeed t.fanSpeed]) ++
        (if t.temperature = d.temperature then [] else [.changedTemp d.temperature t.temperature]))
      (interpretStatusFrame f d).1 := by
  rcases interpretStatusFrame_cases f d with ⟨-, e⟩ | ⟨-, e⟩ | ⟨-, -, e⟩ <;> rw [e]
  · rw [interpret53_fst]
    unfold interpret53
    cases hm : modeOf f.data.d7 with
    | none => simp [changedEvents, Changed.none]
    | some m => by_cases hmm : m = d.mode <;> simp [hmm, changedEvents, Changed.none]
  · by_cases h1 : powerOf f.data.d4 = d.power <;> by_cases h2 : fanOf f.data.d3 = d.fanSpeed <;>
      by_cases h3 : temperatureOf f.data.d0 = d.temperature <;>
      simp [changedEvents, interpret52, h1, h2, h3]
  · simp [changedEvents, Changed.none]

end Sys2Proof.Machine
end

