-- ==== Sys2Proof/Laws/Inv.lean ====
section
/-! SUPPORT. How the invariant is come by: from an idle running state, and over a change that leaves the
worker alone. -/
namespace Sys2Proof.Machine

/-- Between ticks only the parts of the invariant that are not about a phase are left. -/
theorem inv_of_idle {s : State} (hr : s.lifecycle = .running) (hi : s.worker.phase = .idle)
    (hv : s.params.valid = true) (hc : s.transport.config = some (uartConfig s.params))
    (hs : StoreDecoded s.ds) (hg : ∀ n d, s.gDS = some n → s.gCQ ≠ some (n, d)) : Inv s := by
  constructor <;> simp_all [Phase.inStep4, Phase.rank]

/-- The default state of the store is one it can hold. -/
theorem storeDecoded_initial : StoreDecoded DeviceState.initial := .inl ⟨rfl, rfl, rfl⟩

/-- What interpreting a frame makes of a state the store can hold, it can hold (R76 to R78). -/
theorem storeDecoded_interpret (f : Frame) {d : DeviceState} (h : StoreDecoded d) :
    StoreDecoded (interpretStatusFrame f d).1 := by
  rcases interpretStatusFrame_cases f d with ⟨-, e⟩ | ⟨-, e⟩ | ⟨-, -, e⟩ <;> rw [e]
  · rw [interpret53_fst]
    exact h
  · exact .inr ⟨powerOf_ne_unknown _, fanOf_ne_unknown _, temperatureOf_bounds _⟩
  · exact h

end Sys2Proof.Machine
end

