-- ==== Sys2Proof/Laws/PerInstr.lean ====
section
/-! SUPPORT. A law for every instruction as syntax: `EncodeLength`. A well-formed instruction that has bytes on
the wire has 1 to 14 of them (R50, R58, R59), and an operation has none (R60). -/
namespace Sys2Proof.Laws.EncodeLength

def Statement (i : Instr) : Prop :=
  ∀ (p : Params) (w : List Byte), i.wf p = true → encode p i = some w → 1 ≤ w.length ∧ w.length ≤ wireLen

/-- A frame row has the length of `wireFrame`. -/
theorem of_wireFrame {p : Params} {a b c : Byte} {d : Data} {w : List Byte}
    (h : some (wireFrame p a b c d) = some w) : 1 ≤ w.length ∧ w.length ≤ wireLen := by
  cases h
  simp [wireLen, wireFrame, Data.toList]

/-- A body of 13 bytes with its start marker has 14. -/
theorem of_body {b : Byte} {raw w : List Byte} (hl : raw.length = bodyLen) (h : some (b :: raw) = some w) :
    1 ≤ w.length ∧ w.length ≤ wireLen := by
  cases h
  simp [hl, bodyLen, wireLen]

theorem opportunity (a : Byte) (b : Byte) (c : Data) : Statement (.opportunity a b c) := fun _ _ _ h => of_wireFrame h

theorem status52 (a : Data) : Statement (.status52 a) := fun _ _ _ h => of_wireFrame h

theorem mode53 (a : Data) : Statement (.mode53 a) := fun _ _ _ h => of_wireFrame h

theorem statusOther (a : Byte) (b : Data) : Statement (.statusOther a b) := fun _ _ _ h => of_wireFrame h

theorem unaddressed (a : Byte) (b : Byte) (c : Byte) (d : Data) : Statement (.unaddressed a b c d) := fun _ _ _ h => of_wireFrame h

theorem set (a : Byte) (b : Byte) (c : Byte) : Statement (.set a b c) := fun _ _ _ h => of_wireFrame h

theorem rejectNotStart (a : Byte) : Statement (.rejectNotStart a) := by
  intro p w _ h
  cases h
  simp [wireLen]

theorem rejectTruncated (a : List Byte) : Statement (.rejectTruncated a) := by
  intro p w hw h
  cases h
  have hl : a.length < bodyLen := by simpa [Instr.wf] using hw
  simp only [bodyLen, wireLen, List.length_cons] at hl ⊢
  omega

theorem rejectInvalidEnd (a : List Byte) : Statement (.rejectInvalidEnd a) := by
  intro p w hw h
  simp only [Instr.wf, Bool.and_eq_true, beq_iff_eq] at hw
  exact of_body hw.1 h

theorem rejectChecksum (a : List Byte) : Statement (.rejectChecksum a) := by
  intro p w hw h
  simp only [Instr.wf, Bool.and_eq_true, beq_iff_eq] at hw
  exact of_body hw.1.1 h

theorem checksum (a : List Byte) : Statement (.checksum a) := fun _ _ _ h => nomatch h

theorem decodeStatusFrame (a : List Byte) : Statement (.decodeStatusFrame a) := fun _ _ _ h => nomatch h

theorem interpretStatusFrame (a : Frame) (b : DeviceState) : Statement (.interpretStatusFrame a b) := fun _ _ _ h => nomatch h

theorem interpretCmd53 (a : Data) (b : DeviceState) : Statement (.interpretCmd53 a b) := fun _ _ _ h => nomatch h

theorem interpretCmd52 (a : Data) (b : DeviceState) : Statement (.interpretCmd52 a b) := fun _ _ _ h => nomatch h

theorem interpretOther (a : Byte) (b : Data) (c : DeviceState) : Statement (.interpretOther a b c) := fun _ _ _ h => nomatch h

theorem encodeCommandFrame (a : DeviceState) : Statement (.encodeCommandFrame a) := fun _ _ _ h => nomatch h

theorem snapshot : Statement (.snapshot) := fun _ _ _ h => nomatch h

theorem applyUpdate (a : Frame) : Statement (.applyUpdate a) := fun _ _ _ h => nomatch h

theorem enqueue (a : DeviceState) : Statement (.enqueue a) := fun _ _ _ h => nomatch h

theorem tryDequeue : Statement (.tryDequeue) := fun _ _ _ h => nomatch h

theorem nonEmpty : Statement (.nonEmpty) := fun _ _ _ h => nomatch h

theorem getStatus : Statement (.getStatus) := fun _ _ _ h => nomatch h

theorem requestChange (a : DeviceState) : Statement (.requestChange a) := fun _ _ _ h => nomatch h

theorem tick : Statement (.tick) := fun _ _ _ h => nomatch h

theorem readByte (a : Nat) : Statement (.readByte a) := fun _ _ _ h => nomatch h

theorem readBytes (a : Nat) (b : Nat) : Statement (.readBytes a b) := fun _ _ _ h => nomatch h

theorem writeBytes (a : List Byte) : Statement (.writeBytes a) := fun _ _ _ h => nomatch h

theorem waitSendComplete (a : Nat) : Statement (.waitSendComplete a) := fun _ _ _ h => nomatch h

end Sys2Proof.Laws.EncodeLength
end

