-- ==== Sys2Proof/Laws/Step.lean ====
section
/-! SUPPORT. What a step can do, said once: the moves, the calls and the worker's edges, each with every
next state it can answer. -/
namespace Sys2Proof.Machine

/-! ## Who moves -/

/-- The state in which a scheduled move is made. -/
theorem step_of_sched {s : State} {m : Move} {ms : List Move} (h : s.world.sched = m :: ms) :
    step s = performMove m { s with world := { s.world with sched := ms } } := by
  simp [step, stepOnce, nextMove, h]

/-- Where nobody is scheduled, the block is past start-up and no caller is inside a copy, the worker moves. -/
theorem step_of_no_sched {s : State} (h : s.world.sched = []) (hl : s.lifecycle ≠ .uninit)
    (hd : s.gDS = none) (hq : s.gCQ = none) : step s = performMove .worker s := by
  simp [step, stepOnce, nextMove, h, hl, hd, hq]

/-- Where nobody is scheduled, the caller inside `GetStatus` finishes its copy (R43). -/
theorem step_frees_gDS {s : State} {n : Nat} (h : s.world.sched = []) (hr : s.lifecycle = .running)
    (hd : s.gDS = some n) : step s = .next (settleDS s) := by
  simp [step, stepOnce, nextMove, h, hr, hd, performMove, whenRunning]

/-- Then the caller inside `RequestChange` finishes its copy (R43). -/
theorem step_frees_gCQ {s : State} {n : Nat} {d : DeviceState} (h : s.world.sched = [])
    (hr : s.lifecycle = .running) (hd : s.gDS = none) (hq : s.gCQ = some (n, d)) :
    step s = .next (settleCQ s) := by
  simp [step, stepOnce, nextMove, h, hr, hd, hq, performMove, whenRunning]

/-- The state a move is made in is the present one but for the environment's part. -/
theorem nextMove_snd (s : State) : (nextMove s).2 = { s with world := (nextMove s).2.world } := by
  unfold nextMove
  repeat' split
  all_goals rfl

@[simp] theorem nextMove_clock (s : State) : (nextMove s).2.world.clock = s.world.clock := by
  unfold nextMove
  repeat' split
  all_goals rfl

/-- A start-up that no schedule names has legal parameters (R8). -/
theorem legalParams_valid (p : Params) : (legalParams p).valid = true := by
  have h : ∀ b : Byte, b &&& 0xE0#8 &&& 0x1F#8 = 0#8 := by decide
  simp only [Params.valid, FanBits.valid, ModeRaw.valid, legalParams, Bool.and_eq_true, beq_iff_eq]
  exact ⟨⟨⟨⟨⟨⟨⟨h _, h _⟩, h _⟩, h _⟩, h _⟩, by decide⟩, decide_eq_true (by omega)⟩, decide_eq_true (by omega)⟩

/-! ## Calls -/

/-- A call returns a value; beside that, `GetStatus` waits for the store's guard and `RequestChange` adds
one entry; the codec's calls do nothing else. -/
theorem exec_call_next {c : Call} {s t : State} (h : exec c.instr s = .next t) :
    (∃ a, t = reply a s) ∨
    (s.lifecycle = .running ∧ ∃ a, t = reply a (settleDS s)) ∨
    (s.lifecycle = .running ∧ ∃ d, t = reply .unit (enqueue d s)) := by
  cases c with
  | getStatus =>
    obtain ⟨hr, e⟩ := whenRunning_next.mp h
    cases e
    exact .inr (.inl ⟨hr, _, rfl⟩)
  | requestChange d =>
    obtain ⟨hr, e⟩ := whenRunning_next.mp h
    cases e
    exact .inr (.inr ⟨hr, d, rfl⟩)
  | checksum b =>
    simp only [Call.instr, exec, execChecksum] at h
    split at h
    · cases h
      exact .inl ⟨_, rfl⟩
    · cases h
  | decodeStatusFrame raw =>
    simp only [Call.instr, exec, execDecodeStatusFrame] at h
    split at h
    · cases h
      exact .inl ⟨_, rfl⟩
    · cases h
  | interpretStatusFrame f prior =>
    cases h
    exact .inl ⟨_, rfl⟩
  | encodeCommandFrame d =>
    cases h
    exact .inl ⟨_, rfl⟩

/-! ## Moves -/

/-- Every next state a move can answer. -/
theorem performMove_next {m : Move} {s t : State} (h : performMove m s = .next t) :
    (m = .worker ∧ s.lifecycle = .running ∧ workerEdge (actAs .worker s) = .next t) ∨
    (m = .tick ∧ s.lifecycle = .running ∧ s.worker.phase = .idle ∧ s.shutdownReq = true ∧
      t = stop (actAs .worker s)) ∨
    (m = .tick ∧ s.lifecycle = .running ∧ s.worker.phase = .idle ∧ s.shutdownReq = false ∧
      t = tickThrough (actAs .worker s)) ∨
    (∃ n c, m = .call n c ∧ exec c.instr (actAs (.caller n) (returnFirst n s)) = .next t) ∨
    (∃ n, m = .enterStatus n ∧ s.lifecycle = .running ∧ t = enterStatus n s) ∨
    (∃ n d, m = .enterRequest n d ∧ s.lifecycle = .running ∧ t = enterRequest n d s) ∨
    (m = .leaveStatus ∧ s.lifecycle = .running ∧ t = settleDS s) ∨
    (m = .leaveRequest ∧ s.lifecycle = .running ∧ t = settleCQ s) ∨
    (∃ rx, t = setRx rx (actAs .bus s)) ∨
    (∃ ms, m = .elapse ms ∧ t = { s with world := s.world.pass ms }) ∨
    (∃ p opened rx, m = .startUp p opened rx ∧ s.lifecycle ≠ .running ∧ p.valid = true ∧
      s.lifecycle ≠ .initFailed ∧ t = startUp p opened rx s) ∨
    (m = .shutdown ∧ s.lifecycle = .running ∧ t = actAs .lifecycle { s with shutdownReq := true }) := by
  cases m with
  | worker =>
    obtain ⟨hr, e⟩ := whenRunning_next.mp h
    exact .inl ⟨rfl, hr, e⟩
  | tick =>
    simp only [performMove] at h
    split at h
    · rename_i hc
      cases h
      exact .inr (.inl ⟨rfl, hc.1, hc.2.2, hc.2.1, rfl⟩)
    · rename_i hc
      obtain ⟨hr, hi, e⟩ := whenBetweenTicks_next.mp h
      cases e
      refine .inr (.inr (.inl ⟨rfl, hr, hi, ?_, rfl⟩))
      exact Bool.eq_false_iff.mpr fun hs => hc ⟨hr, hs, hi⟩
  | call n c => exact .inr (.inr (.inr (.inl ⟨n, c, rfl, h⟩)))
  | enterStatus n =>
    obtain ⟨hr, e⟩ := whenRunning_next.mp h
    cases e
    exact .inr (.inr (.inr (.inr (.inl ⟨n, rfl, hr, rfl⟩))))
  | enterRequest n d =>
    obtain ⟨hr, e⟩ := whenRunning_next.mp h
    cases e
    exact .inr (.inr (.inr (.inr (.inr (.inl ⟨n, d, rfl, hr, rfl⟩)))))
  | leaveStatus =>
    obtain ⟨hr, e⟩ := whenRunning_next.mp h
    cases e
    exact .inr (.inr (.inr (.inr (.inr (.inr (.inl ⟨rfl, hr, rfl⟩))))))
  | leaveRequest =>
    obtain ⟨hr, e⟩ := whenRunning_next.mp h
    cases e
    exact .inr (.inr (.inr (.inr (.inr (.inr (.inr (.inl ⟨rfl, hr, rfl⟩)))))))
  | deliver b =>
    cases h
    exact .inr (.inr (.inr (.inr (.inr (.inr (.inr (.inr (.inl ⟨_, rfl⟩))))))))
  | lose i k =>
    cases h
    exact .inr (.inr (.inr (.inr (.inr (.inr (.inr (.inr (.inl ⟨_, rfl⟩))))))))
  | elapse ms =>
    cases h
    exact .inr (.inr (.inr (.inr (.inr (.inr (.inr (.inr (.inr (.inl ⟨ms, rfl, rfl⟩)))))))))
  | startUp p opened rx =>
    simp only [performMove] at h
    split at h
    · cases h
    · split at h
      · cases h
      · split at h
        · rename_i hr hf hv
          cases h
          exact .inr (.inr (.inr (.inr (.inr (.inr (.inr (.inr (.inr (.inr (.inl
            ⟨p, opened, rx, rfl, hr, hv, hf, rfl⟩))))))))))
        · cases h
  | shutdown =>
    obtain ⟨hr, e⟩ := whenRunning_next.mp h
    cases e
    exact .inr (.inr (.inr (.inr (.inr (.inr (.inr (.inr (.inr (.inr (.inr ⟨rfl, hr, rfl⟩))))))))))

/-- A caller's earlier call has returned: the guards it held are free, the store is as it was, and the
queue has the entry it was appending. -/
theorem returnFirst_frame (n : Nat) (s : State) :
    (returnFirst n s).ds = s.ds ∧ (returnFirst n s).params = s.params ∧
      (returnFirst n s).lifecycle = s.lifecycle ∧ (returnFirst n s).shutdownReq = s.shutdownReq ∧
      (returnFirst n s).worker = s.worker ∧ (returnFirst n s).transport = s.transport ∧
      (returnFirst n s).world = s.world ∧ (returnFirst n s).trace.written = s.trace.written ∧
      (returnFirst n s).trace.events = s.trace.events ∧
      (returnFirst n s).gDS ≠ some n ∧ (∀ d, (returnFirst n s).gCQ ≠ some (n, d)) ∧
      ((returnFirst n s).gDS = s.gDS ∨ (returnFirst n s).gDS = none) ∧
      ((returnFirst n s).gCQ = s.gCQ ∨ (returnFirst n s).gCQ = none) ∧
      (∃ more, (returnFirst n s).cq = s.cq ++ more) ∧
      (∃ more, (returnFirst n s).trace.replies = s.trace.replies ++ more) := by
  unfold returnFirst
  by_cases h1 : s.gDS = some n
  · simp only [h1, if_true, settleDS_gCQ]
    by_cases h2 : s.gCQ.map (fun h => h.1) = some n
    · simp [h2, settleCQ_cq, settleCQ_replies, settleDS_replies, List.append_assoc]
    · simp only [h2, if_false]
      refine ⟨by simp, by simp, by simp, by simp, by simp, by simp, by simp, by simp, by simp, by simp,
        fun d hd => h2 (by rw [settleDS_gCQ] at hd; simp [hd]), by simp, by simp, ⟨[], by simp⟩,
        ⟨_, settleDS_replies s⟩⟩
  · simp only [h1, if_false]
    by_cases h2 : s.gCQ.map (fun h => h.1) = some n
    · simp [h2, h1, settleCQ_cq, settleCQ_replies]
    · simp only [h2, if_false]
      refine ⟨by simp, by simp, by simp, by simp, by simp, by simp, by simp, by simp, by simp, h1,
        fun d hd => h2 (by simp [hd]), .inl (by simp), .inl (by simp), ⟨[], by simp⟩, ⟨[], by simp⟩⟩

/-- The state after a shutdown (R155). -/
theorem stop_frame (s : State) :
    (stop s).lifecycle = .stopped ∧ (stop s).transport.config = none ∧ (stop s).cq = [] ∧
      (stop s).ds = DeviceState.initial ∧ (stop s).gDS = none ∧ (stop s).gCQ = none ∧
      (stop s).worker = s.worker ∧ (stop s).params = s.params ∧ (stop s).actor = s.actor ∧
      (stop s).trace.written = s.trace.written ∧ (stop s).trace.events = s.trace.events ∧
      (stop s).trace.replies = s.trace.replies ++ waitingCopyReply s ++ waitingEntryReply s := by
  simp [stop, settleCQ_replies, settleDS_replies, waitingCopyReply, waitingEntryReply]

/-! ## The worker's edges -/

/-- To `StatusApply` or the end of the tick, by the status test (R121). -/
theorem toStatusOrIdle_cases (s : State) :
    (isStatus s.params s.worker.frm = true ∧ toStatusOrIdle s = goTo .statusApply s) ∨
    (isStatus s.params s.worker.frm = false ∧ toStatusOrIdle s = endTick s) := by
  unfold toStatusOrIdle
  cases h : isStatus s.params s.worker.frm <;> simp

/-- The phase after the status test. -/
theorem toStatusOrIdle_phase (s : State) :
    (toStatusOrIdle s).worker.phase = .statusApply ∨ (toStatusOrIdle s).worker.phase = .idle := by
  rcases toStatusOrIdle_cases s with ⟨-, e⟩ | ⟨-, e⟩ <;> rw [e]
  · exact .inl rfl
  · exact .inr rfl

/-- Between ticks, the row that a valid frame matches does what both classifications of the frame do, and
is well formed (R53, R106). -/
theorem exec_rowOfFrame {f : Frame} {s : State} (h : s.lifecycle = .running) (hi : s.worker.phase = .idle)
    (hc : f.checksum = xorAll f.covered) :
    exec (rowOfFrame s.params f) s = .next (classified f s) ∧
      (rowOfFrame s.params f).wf s.params = true := by
  have hrec : ∀ a b c, f.source = a → f.destination = b → f.command = c →
      whenBetweenTicks s (.next (classified (recordOf a b c f.data) s)) = .next (classified f s) := by
    rintro _ _ _ rfl rfl rfl
    have hk : checksum ([f.source, f.destination, f.command] ++ f.data.toList) = f.checksum := by
      rw [hc]
      exact checksum_covered f
    rw [whenBetweenTicks_of_idle h hi]
    simp only [recordOf, hk]
  unfold rowOfFrame
  by_cases h1 : isOpportunity s.params f = true
  · rw [if_pos h1]
    exact ⟨hrec _ _ _ rfl (by simpa [isOpportunity] using h1) rfl, rfl⟩
  rw [if_neg h1]
  have hd : f.destination ≠ s.params.addrMarker := by simpa [isOpportunity] using h1
  by_cases h2 : isStatus s.params f = true
  · rw [if_pos h2]
    simp only [isStatus, Bool.and_eq_true, beq_iff_eq] at h2
    have hm : notMarker s.params s.params.addrRemote = true := by simpa [notMarker, ← h2.2] using hd
    by_cases h3 : f.command = cmdStatus
    · rw [if_pos h3]
      exact ⟨hrec _ _ _ h2.1 h2.2 h3, hm⟩
    · rw [if_neg h3]
      by_cases h4 : f.command = cmdMode
      · rw [if_pos h4]
        exact ⟨hrec _ _ _ h2.1 h2.2 h4, hm⟩
      · rw [if_neg h4]
        exact ⟨hrec _ _ _ h2.1 h2.2 rfl, by simp [Instr.wf, hm, h3, h4]⟩
  · rw [if_neg h2]
    refine ⟨hrec _ _ _ rfl rfl rfl, ?_⟩
    have hs : f.source = s.params.addrUnit → f.destination ≠ s.params.addrRemote := by
      simpa [isStatus] using h2
    by_cases h5 : f.source = s.params.addrUnit
    · simp [Instr.wf, notMarker, hd, h5, hs h5]
    · simp [Instr.wf, notMarker, hd, h5]

/-! Each row of R121 as an equation. -/

theorem workerEdge_idle {s : State} (h : s.worker.phase = .idle) :
    workerEdge s = if s.shutdownReq then .next (stop s) else .next (goTo .poll s) := by
  simp only [workerEdge, h]

theorem workerEdge_poll {s : State} (h : s.worker.phase = .poll) :
    workerEdge s =
      if (readByte s.params.tPoll s).1 = some s.params.startMark then
        .next (goTo .body { (readByte s.params.tPoll s).2 with
          worker := { s.worker with sb := (readByte s.params.tPoll s).1 } })
      else
        .next (endTick { (readByte s.params.tPoll s).2 with
          worker := { s.worker with sb := (readByte s.params.tPoll s).1 } }) := by
  simp only [workerEdge, h]
  rcases readByte_cases s.params.tPoll s with ⟨-, e⟩ | ⟨b, rest, -, e⟩ <;> rw [e] <;> rfl

theorem workerEdge_body {s : State} (h : s.worker.phase = .body) :
    workerEdge s =
      if (readBytes bodyLen s.params.tBody s).1.length < bodyLen then
        .next (raise (.truncatedFrame (readBytes bodyLen s.params.tBody s).1.length)
          { (readBytes bodyLen s.params.tBody s).2 with
            worker := { s.worker with rxb := (readBytes bodyLen s.params.tBody s).1 } })
      else
        .next (goTo .decode
          { (readBytes bodyLen s.params.tBody s).2 with
            worker := { s.worker with rxb := (readBytes bodyLen s.params.tBody s).1 } }) := by
  simp only [workerEdge, h]
  rfl

theorem workerEdge_decode {s : State} (h : s.worker.phase = .decode) :
    (decodeStatusFrame s.params s.worker.rxb = .err .invalidEnd ∧
      workerEdge s = .next (raise (.invalidTerminator s.worker.rxb) s)) ∨
    (decodeStatusFrame s.params s.worker.rxb = .err .checksumMismatch ∧
      workerEdge s = .next (raise (.checksumMismatch s.worker.rxb) s)) ∨
    (∃ f, decodeStatusFrame s.params s.worker.rxb = .ok f ∧
      workerEdge s = .next (goTo .classify { s with worker := { s.worker with frm := f } })) := by
  simp only [workerEdge, h]
  rcases decodeStatusFrame_cases s.params s.worker.rxb with ⟨-, e⟩ | ⟨-, -, e⟩ | ⟨-, -, e⟩ <;> rw [e]
  · exact .inl ⟨rfl, rfl⟩
  · exact .inr (.inl ⟨rfl, rfl⟩)
  · exact .inr (.inr ⟨_, rfl, rfl⟩)

theorem workerEdge_classify {s : State} (h : s.worker.phase = .classify) :
    (isOpportunity s.params s.worker.frm = false ∧ workerEdge s = .next (toStatusOrIdle s)) ∨
    (isOpportunity s.params s.worker.frm = true ∧ (settleCQ s).cq = [] ∧
      workerEdge s = .next (toStatusOrIdle (settleCQ s))) ∨
    (isOpportunity s.params s.worker.frm = true ∧ (settleCQ s).cq ≠ [] ∧
      workerEdge s = .next (goTo .oppPop
        { settleCQ s with worker := { s.worker with t0 := s.world.clock } })) := by
  simp only [workerEdge, h]
  cases ho : isOpportunity s.params s.worker.frm with
  | false => exact .inl ⟨rfl, rfl⟩
  | true =>
    cases hq : (settleCQ s).cq with
    | nil =>
      refine .inr (.inl ⟨rfl, rfl, ?_⟩)
      simp [nonEmpty, hq]
    | cons d ds =>
      refine .inr (.inr ⟨rfl, by simp, ?_⟩)
      simp [nonEmpty, hq, now, h]

theorem workerEdge_oppPop {s : State} (h : s.worker.phase = .oppPop) :
    ((settleCQ s).cq = [] ∧ workerEdge s = .fault .popFromEmpty) ∨
    (∃ d ds, (settleCQ s).cq = d :: ds ∧
      workerEdge s = .next (goTo .oppEncode
        { setQueue ds (blockFreely (settleCQ s)) with worker := { s.worker with req := d } })) := by
  simp only [workerEdge, h]
  rcases tryDequeue_cases s with ⟨hq, e⟩ | ⟨d, ds, hq, e⟩ <;> rw [e]
  · exact .inl ⟨hq, rfl⟩
  · exact .inr ⟨d, ds, hq, by simp [h]⟩

theorem workerEdge_oppEncode {s : State} (h : s.worker.phase = .oppEncode) :
    workerEdge s = .next (goTo .oppCheck
      { s with worker := { s.worker with txb := encodeCommandFrame s.params s.worker.req } }) := by
  simp only [workerEdge, h]

theorem workerEdge_oppCheck {s : State} (h : s.worker.phase = .oppCheck) :
    workerEdge s =
      if s.world.clock - s.worker.t0 ≤ tBudget then
        .next (goTo .oppSettle { s with worker := { s.worker with el := s.world.clock - s.worker.t0 } })
      else
        .next (toStatusOrIdle (discardRequest
          (emit [.sendWindowMissed s.worker.req (s.world.clock - s.worker.t0)]
            { s with worker := { s.worker with el := s.world.clock - s.worker.t0 } }))) := by
  simp only [workerEdge, h, now]

theorem workerEdge_oppSettle {s : State} (h : s.worker.phase = .oppSettle) :
    workerEdge s = .next (goTo .oppWrite (delay s.params.tSettle s)) := by
  simp only [workerEdge, h]

theorem workerEdge_oppWrite {s : State} (h : s.worker.phase = .oppWrite) :
    workerEdge s = .next (goTo .oppWait (writeBytes s.worker.txb s)) := by
  simp only [workerEdge, h]

theorem workerEdge_oppWait {s : State} (h : s.worker.phase = .oppWait) :
    workerEdge s = .next (toStatusOrIdle (waitSendComplete s.params.tTxWait s)) := by
  simp only [workerEdge, h]

theorem workerEdge_statusApply {s : State} (h : s.worker.phase = .statusApply) :
    workerEdge s = .next (endTick (statusUpdate s.worker.frm s)) := by
  simp only [workerEdge, h]

/-! ## Runs -/

theorem core_run_succ (M : Host.Core) {s t : M.State} (h : M.step s = .next t) (k : Nat) :
    M.run (k + 1) s = M.run k t := by
  simp only [Host.Core.run, h]

/-- A run that begins with a step goes on from the state the step gives. -/
theorem run_of_step {s t : State} (h : step s = .next t) (k : Nat) :
    Sys2Proof.core.run (k + 1) s = Sys2Proof.core.run k t := core_run_succ Sys2Proof.core h k

end Sys2Proof.Machine
end

