-- ==== Sys2Proof/Tests/Slice0.lean ====
section
/-! SUPPORT. Tests. Expected values are those of spec/95_test_vectors.md (its section is named at each
group) or of the rule a test names; bytes under instantiation T are written out from R50 to R56. -/
namespace Sys2Proof.Tests
open Sys2Proof.Machine

/-! ## Small states and readings of an outcome -/

abbrev T : Params := Params.instT

/-- T with `ADDR_MARKER = ADDR_REMOTE` (95_test_vectors.md section 2.9). -/
def T2 : Params := { T with addrMarker := 0x84 }

/-- The data of S-1. -/
def d1 : Data := ⟨0x11, 0, 0, 0x0A, 0, 0, 0, 0⟩
def zeros : Data := ⟨0, 0, 0, 0, 0, 0, 0, 0⟩
/-- S-3: `{On, Cool, Max, 24}`. -/
def a : DeviceState := ⟨.on, .cool, .max, 24⟩
/-- `{Off, Cool, Min, 26}`. -/
def b : DeviceState := ⟨.off, .cool, .min, 26⟩

/-- A running block under a parameter set, between ticks, nothing waiting. -/
def base (p : Params) : State :=
  { State.reset with
    params := p
    lifecycle := .running
    transport := { config := some (uartConfig p), rx := [] } }

def run : State := base T

def withWaits (ws : List Nat) (s : State) : State := { s with world := { s.world with waits := ws } }
def withBursts (ks : List Nat) (s : State) : State := { s with world := { s.world with bursts := ks } }
def withSched (ms : List Move) (s : State) : State := { s with world := { s.world with sched := ms } }
def atPhase (ph : Phase) (s : State) : State := { s with worker := { s.worker with phase := ph } }

/-- The outcome is a next state with a property. -/
def nextWith (r : Result) (f : State → Bool) : Bool :=
  match r with
  | .next t => f t
  | .fault _ => false
  | .refused _ => false

/-- The value returned last. -/
def lastReply (t : State) : Option Answer := (t.trace.replies.map fun r => r.2).getLast?

/-- The wire frames of 95_test_vectors.md section 2.8. -/
def statusBytes : List Byte := [0x32, 0x20, 0x84, 0x52, 0x11, 0, 0, 0x0A, 0, 0, 0, 0, 0xED, 0x34]
def modeBytes : List Byte := [0x32, 0x20, 0x84, 0x53, 0, 0, 0, 0, 0, 0, 0, 1, 0xF6, 0x34]
def oppBytes : List Byte := [0x32, 0x84, 0xAD, 0xD1, 0, 0, 0, 0, 0, 0, 0, 0, 0xF8, 0x34]
def setBytes : List Byte := [0x32, 0x84, 0x20, 0xA0, 0x1F, 0x18, 0xB8, 1, 0xF4, 0, 0, 0, 0x4E, 0x34]
def goodBody : List Byte := [0x20, 0x84, 0x52, 0x11, 0, 0, 0x0A, 0, 0, 0, 0, 0xED, 0x34]

/-! ## WellFormed: an ill-formed term for each check -/

theorem test_wf_status52_is_row_1 : (Instr.status52 d1).wf T2 = false := by decide
theorem test_wf_mode53_is_row_1 : (Instr.mode53 d1).wf T2 = false := by decide
theorem test_wf_statusOther_is_row_1 : (Instr.statusOther 0x54 d1).wf T2 = false := by decide
theorem test_wf_statusOther_0x52 : (Instr.statusOther 0x52 d1).wf T = false := by decide
theorem test_wf_statusOther_0x53 : (Instr.statusOther 0x53 d1).wf T = false := by decide
theorem test_wf_unaddressed_to_marker : (Instr.unaddressed 0x84 0xAD 0 d1).wf T = false := by decide
theorem test_wf_unaddressed_unit_to_remote : (Instr.unaddressed 0x20 0x84 0 d1).wf T = false := by decide
theorem test_wf_notStart_is_start : (Instr.rejectNotStart 0x32).wf T = false := by decide
theorem test_wf_truncated_is_whole : (Instr.rejectTruncated goodBody).wf T = false := by decide
theorem test_wf_invalidEnd_length : (Instr.rejectInvalidEnd [1, 2]).wf T = false := by decide
theorem test_wf_invalidEnd_has_end : (Instr.rejectInvalidEnd goodBody).wf T = false := by decide
theorem test_wf_badChecksum_length : (Instr.rejectChecksum [1, 2]).wf T = false := by decide
theorem test_wf_badChecksum_is_good : (Instr.rejectChecksum goodBody).wf T = false := by decide
theorem test_wf_badChecksum_bad_end : (Instr.rejectChecksum (goodBody.set 12 0x35)).wf T = false := by decide
theorem test_wf_checksum_short : (Instr.checksum (goodBody.take 10)).wf T = false := by decide
theorem test_wf_decode_short : (Instr.decodeStatusFrame (goodBody.take 12)).wf T = false := by decide
theorem test_wf_decode_long : (Instr.decodeStatusFrame (0 :: goodBody)).wf T = false := by decide
theorem test_wf_other_0x52 : (Instr.interpretOther 0x52 d1 a).wf T = false := by decide
theorem test_wf_other_0x53 : (Instr.interpretOther 0x53 d1 a).wf T = false := by decide
theorem test_wf_good : (Instr.status52 d1).wf T = true := by decide

/-! ## Decoding words written out from R50 to R56 and R58 (section 2.8) -/

theorem test_decode_opportunity : decode T oppBytes = .instr (.opportunity 0x84 0xD1 zeros) [] := by decide
theorem test_decode_status52 : decode T statusBytes = .instr (.status52 d1) [] := by decide
theorem test_decode_mode53 : decode T modeBytes = .instr (.mode53 ⟨0, 0, 0, 0, 0, 0, 0, 1⟩) [] := by decide
theorem test_decode_statusOther :
    decode T [0x32, 0x20, 0x84, 0x54, 1, 2, 3, 4, 5, 6, 7, 8, 0xF8, 0x34] =
      .instr (.statusOther 0x54 ⟨1, 2, 3, 4, 5, 6, 7, 8⟩) [] := by decide
theorem test_decode_unaddressed :
    decode T [0x32, 0x84, 0x20, 0x52, 0x11, 0, 0, 0x0A, 0x80, 0, 0, 0, 0x6D, 0x34] =
      .instr (.unaddressed 0x84 0x20 0x52 ⟨0x11, 0, 0, 0x0A, 0x80, 0, 0, 0⟩) [] := by decide
theorem test_decode_set : decodeSent T setBytes = some (.set 0xB8 1 0xF4) := by decide
theorem test_decode_set_received :
    decode T setBytes = .instr (.unaddressed 0x84 0x20 0xA0 ⟨0x1F, 0x18, 0xB8, 1, 0xF4, 0, 0, 0⟩) [] := by decide
theorem test_decode_notStart : decode T [0x34, 0x32] = .instr (.rejectNotStart 0x34) [0x32] := by decide
theorem test_decode_truncated :
    decode T [0x32, 0x20, 0x84, 0x52, 0x11] = .instr (.rejectTruncated [0x20, 0x84, 0x52, 0x11]) [] := by decide
theorem test_decode_invalidEnd :
    decode T (0x32 :: goodBody.set 12 0x35) = .instr (.rejectInvalidEnd (goodBody.set 12 0x35)) [] := by decide
theorem test_decode_badChecksum :
    decode T (0x32 :: goodBody.set 11 0xEE) = .instr (.rejectChecksum (goodBody.set 11 0xEE)) [] := by decide
theorem test_decode_nothing : decode T [] = .reject .nothingReceived := by decide
/-- Program P6: the misaligned window is a body without a terminator. -/
theorem test_decode_false_start :
    decode T ([0x32, 0, 0, 0x0A, 0, 0, 0, 0, 0xCE, 0x34] ++ statusBytes.take 4 ++ [0x11]) =
      .instr (.rejectInvalidEnd [0, 0, 0x0A, 0, 0, 0, 0, 0xCE, 0x34, 0x32, 0x20, 0x84, 0x52]) [0x11] := by
  decide

/-! ## Words numbered as the table numbers them, and where step takes them -/

theorem test_word_status52 :
    decodeTableWord 112 0x34ED000000000A00001152842032 = some (.status52 d1) := by decide
theorem test_word_set :
    decodeTableWord 112 0x344E000000F401B8181FA0208432 = some (.set 0xB8 1 0xF4) := by decide
theorem test_word_body : decodeTableWord 104 0x35ED000000000A000011528420 =
    some (.rejectInvalidEnd (goodBody.set 12 0x35)) := by decide
theorem test_word_byte : decodeTableWord 8 0x00 = some (.rejectNotStart 0) := by decide
theorem test_word_start_alone : decodeTableWord 8 0x32 = some (.rejectTruncated []) := by decide
theorem test_step_runs_received_word :
    nextWith (step (State.reset.withFetchWord 112 0x34ED000000000A00001152842032))
      (fun t => t.ds == ⟨.off, .unknown, .min, 26⟩) = true := by decide
theorem test_step_runs_sent_word :
    nextWith (step (State.reset.withFetchWord 112 0x344E000000F401B8181FA0208432))
      (fun t => t.trace.written == [setBytes]) = true := by decide
theorem test_step_runs_rejected_word :
    nextWith (step (State.reset.withFetchWord 8 0x00)) (fun t => t.transport.rx == []) = true := by decide

/-! ## The Frame Codec (sections 2.1 to 2.6) -/

theorem test_checksum_status :
    nextWith (exec (.checksum goodBody) run) (fun t => lastReply t == some (.byte 0xED)) = true := by decide
theorem test_checksum_counts :
    nextWith (exec (.checksum [1, 2, 3, 4, 5, 6, 7, 8, 9, 10, 11]) run)
      (fun t => lastReply t == some (.byte 0)) = true := by decide
theorem test_decodeStatusFrame_terminator_first :
    nextWith (exec (.decodeStatusFrame ((goodBody.set 11 0xEE).set 12 0x35)) run)
      (fun t => lastReply t == some (.decoded (.err .invalidEnd))) = true := by decide
theorem test_decodeStatusFrame_fields :
    nextWith (exec (.decodeStatusFrame goodBody) run)
      (fun t => lastReply t == some (.decoded (.ok ⟨0x20, 0x84, 0x52, d1, 0xED⟩))) = true := by decide
theorem test_interpret_dispatch :
    nextWith (exec (.interpretStatusFrame ⟨0, 0, 0x53, ⟨0, 0, 0, 0, 0, 0, 0, 4⟩, 0⟩ b) run)
      (fun t => lastReply t == some (.update ⟨.off, .heat, .min, 26⟩ ⟨false, true, false, false⟩)) = true := by
  decide
theorem test_interpret53_out_of_range :
    nextWith (exec (.interpretCmd53 ⟨0, 0, 0, 0, 0, 0, 0, 5⟩ b) run)
      (fun t => lastReply t == some (.update b ⟨false, false, false, false⟩)) = true := by decide
theorem test_interpret53_zero_is_auto :
    nextWith (exec (.interpretCmd53 zeros DeviceState.initial) run)
      (fun t => lastReply t == some (.update ⟨.unknown, .auto, .unknown, 0⟩ ⟨false, true, false, false⟩)) =
      true := by decide
theorem test_interpret52_ignored_bits :
    nextWith (exec (.interpretCmd52 ⟨0xFF, 0xAA, 0x55, 0xFD, 0x80, 1, 2, 3⟩ ⟨.on, .heat, .max, 30⟩) run)
      (fun t => lastReply t == some (.update ⟨.on, .heat, .max, 40⟩ ⟨false, false, false, true⟩)) = true := by
  decide
theorem test_interpret52_mid :
    nextWith (exec (.interpretCmd52 ⟨0x0F, 0, 0, 0x1C, 0xF4, 0, 0, 0⟩ b) run)
      (fun t => lastReply t == some (.update ⟨.on, .cool, .mid, 24⟩ ⟨true, false, true, true⟩)) = true := by
  decide
theorem test_interpretOther :
    nextWith (exec (.interpretOther 0xA0 d1 b) run)
      (fun t => lastReply t == some (.update b ⟨false, false, false, false⟩)) = true := by decide
theorem test_encode_S3 :
    nextWith (exec (.encodeCommandFrame a) run) (fun t => lastReply t == some (.bytes setBytes)) = true := by
  decide
theorem test_encode_out_of_range :
    nextWith (exec (.encodeCommandFrame ⟨.on, .cool, .min, 40⟩) run)
      (fun t => lastReply t == some (.bytes
        [0x32, 0x84, 0x20, 0xA0, 0x1F, 0x18, 0x68, 1, 0xF4, 0, 0, 0, 0x9E, 0x34])) = true := by decide

/-! ## Store and queue (section 2.7) -/

theorem test_snapshot :
    nextWith (exec .snapshot run) (fun t => lastReply t == some (.state ⟨.unknown, .unknown, .unknown, 0⟩)) =
      true := by decide
theorem test_applyUpdate :
    nextWith (exec (.applyUpdate ⟨0x20, 0x84, 0x52, d1, 0xED⟩) run)
      (fun t => t.ds == ⟨.off, .unknown, .min, 26⟩) = true := by decide
theorem test_enqueue_keeps_duplicates :
    nextWith (exec (.enqueue a) (setQueue [a, b] run)) (fun t => t.cq == [a, b, a]) = true := by decide
theorem test_tryDequeue :
    nextWith (exec .tryDequeue (setQueue [a, b] run))
      (fun t => t.cq == [b] && lastReply t == some (.optState (some a))) = true := by decide
theorem test_tryDequeue_empty :
    nextWith (exec .tryDequeue run) (fun t => lastReply t == some (.optState none)) = true := by decide
theorem test_nonEmpty :
    nextWith (exec .nonEmpty (setQueue [a] run))
      (fun t => t.cq == [a] && lastReply t == some (.bool true)) = true := by decide
theorem test_nonEmpty_empty :
    nextWith (exec .nonEmpty run) (fun t => lastReply t == some (.bool false)) = true := by decide
theorem test_getStatus :
    nextWith (exec .getStatus (setStore b run)) (fun t => lastReply t == some (.state b)) = true := by decide
theorem test_requestChange_leaves_status :
    nextWith (exec (.requestChange ⟨.on, .cool, .min, 26⟩) (setStore b run))
      (fun t => t.cq == [⟨.on, .cool, .min, 26⟩] && t.ds == b) = true := by decide

/-! ## The transport calls (R33 to R36) -/

theorem test_readByte :
    nextWith (exec (.readByte 20) (setRx [1, 2] run))
      (fun t => t.transport.rx == [2] && lastReply t == some (.optByte (some 1))) = true := by decide
theorem test_readByte_none :
    nextWith (exec (.readByte 20) run) (fun t => lastReply t == some (.optByte none)) = true := by decide
theorem test_readBytes_short :
    nextWith (exec (.readBytes 13 100) (withBursts [2] (setRx [1, 2, 3] run)))
      (fun t => t.transport.rx == [3] && lastReply t == some (.bytes [1, 2])) = true := by decide
theorem test_readBytes_no_more_than_asked :
    nextWith (exec (.readBytes 2 100) (withBursts [5] (setRx [1, 2, 3] run)))
      (fun t => lastReply t == some (.bytes [1, 2])) = true := by decide
theorem test_writeBytes :
    nextWith (exec (.writeBytes [7]) run) (fun t => t.trace.written == [[7]]) = true := by decide
theorem test_waitSendComplete :
    nextWith (exec (.waitSendComplete 300) (withWaits [900] run)) (fun t => t.world.clock == 300) = true := by
  decide

/-! ## One tick, by outcome (sections 2.8 and 2.9) -/

/-- A tick over a receive buffer whose body read succeeds in full. -/
def tickOver (rx : List Byte) (s : State) : Result := exec .tick (withBursts [13] (setRx rx s))

theorem test_tick_one_byte :
    nextWith (tickOver (0 :: statusBytes) run)
      (fun t => t.transport.rx == statusBytes && t.trace.events == []) = true := by decide
theorem test_tick_status :
    nextWith (tickOver statusBytes run)
      (fun t => t.ds == ⟨.off, .unknown, .min, 26⟩ && t.trace.events ==
        [.changedPower .unknown .off, .changedFan .unknown .min, .changedTemp 0 26]) = true := by decide
theorem test_opportunity_gate_open :
    nextWith (exec (.opportunity 0x84 0xD1 zeros) (withWaits [180] (setQueue [a, b] run)))
      (fun t => t.cq == [b] && t.trace.written == [setBytes] && t.trace.events == []) = true := by decide
theorem test_opportunity_gate_closed :
    nextWith (exec (.opportunity 0x84 0xD1 zeros) (withWaits [181] (setQueue [a, b] run)))
      (fun t => t.cq == [b] && t.trace.written == [] && t.trace.events == [.sendWindowMissed a 181]) = true := by
  decide
theorem test_status52 :
    nextWith (exec (.status52 d1) (setQueue [a] run))
      (fun t => t.ds == ⟨.off, .unknown, .min, 26⟩ && t.cq == [a] && t.trace.written == []) = true := by decide
/-- Section 2.9: with the marker equal to the remote's address the lost request does not stop step 5. -/
theorem test_status52_is_opportunity_too :
    nextWith (exec (.status52 d1) (withWaits [500] (setQueue [a] (base T2))))
      (fun t => t.ds == ⟨.off, .unknown, .min, 26⟩ && t.cq == [] && t.trace.events ==
        [.sendWindowMissed a 500, .changedPower .unknown .off, .changedFan .unknown .min,
          .changedTemp 0 26]) = true := by decide
theorem test_mode53 :
    nextWith (exec (.mode53 ⟨0, 0, 0, 0, 0, 0, 0, 1⟩) run)
      (fun t => t.ds.mode == .cool && t.trace.events == [.changedMode .unknown .cool]) = true := by decide
theorem test_statusOther :
    nextWith (exec (.statusOther 0x54 d1) (setStore b run))
      (fun t => t.ds == b && t.trace.events == []) = true := by decide
theorem test_unaddressed :
    nextWith (exec (.unaddressed 0x84 0x20 0x52 d1) (setStore b (setQueue [a] run)))
      (fun t => t.ds == b && t.cq == [a] && t.trace.written == [] && t.trace.events == []) = true := by decide
theorem test_set :
    nextWith (exec (.set 0xB8 1 0xF4) run) (fun t => t.trace.written == [setBytes]) = true := by decide
theorem test_rejectNotStart :
    nextWith (exec (.rejectNotStart 0x34) run) (fun t => t.trace.events == []) = true := by decide
theorem test_rejectTruncated :
    nextWith (tickOver (statusBytes.take 5) run)
      (fun t => t.trace.events == [.truncatedFrame 4] && t.transport.rx == []) = true := by decide
theorem test_rejectInvalidEnd :
    nextWith (exec (.rejectInvalidEnd (goodBody.set 12 0x35)) run)
      (fun t => t.trace.events == [.invalidTerminator (goodBody.set 12 0x35)]) = true := by decide
theorem test_rejectChecksum :
    nextWith (tickOver (0x32 :: goodBody.set 11 0xEE) (setStore b run))
      (fun t => t.trace.events == [.checksumMismatch (goodBody.set 11 0xEE)] && t.ds == b) = true := by decide

/-! ## Lifecycle (R150 to R155) -/

theorem test_startUp :
    nextWith (step (withSched [.startUp T true [1]] (setQueue [a] State.reset)))
      (fun t => t.lifecycle == .running && t.cq == [] && t.transport.config.isSome) = true := by decide
theorem test_startUp_fails :
    nextWith (step (withSched [.startUp T false []] State.reset))
      (fun t => t.lifecycle == .initFailed && t.transport.config == none) = true := by decide
theorem test_shutdown_is_between_ticks :
    nextWith (step { atPhase .oppSettle run with shutdownReq := true }) (fun t => t.worker.phase == .oppWrite) =
      true := by decide
theorem test_shutdown_loses_the_queue :
    nextWith (step { setQueue [a] run with shutdownReq := true })
      (fun t => t.lifecycle == .stopped && t.cq == [] && t.transport.config == none) = true := by decide

/-! ## Witnesses: states and operands that meet the hypotheses of each statement -/

theorem witness_DecodeOfEncodeIsTheInstruction :
    ((Instr.set 0xB8 1 0xF4).wf T = true ∧ encode T (.set 0xB8 1 0xF4) = some setBytes) ∧
    ((Instr.rejectTruncated (goodBody.take 12)).wf T = true ∧
      encode T (.rejectTruncated (goodBody.take 12)) = some (0x32 :: goodBody.take 12)) ∧
    ((Instr.status52 d1).wf T = true ∧ encode T (.status52 d1) = some statusBytes) := by decide

theorem witness_EncodeOfDecodeIsTheBytes : statusBytes ≠ [] := by decide

theorem witness_FramesAreFourteenBytes :
    ((Instr.rejectChecksum (goodBody.set 11 0)).wf T = true ∧
      encode T (.rejectChecksum (goodBody.set 11 0)) = some (0x32 :: goodBody.set 11 0)) ∧
    decodeSent T setBytes = some (.set 0xB8 1 0xF4) := by decide

theorem witness_DecodeStatusFrameResults :
    goodBody.length = 13 ∧ byteAt (goodBody.set 12 0x35) 12 ≠ run.params.endMark ∧
      (byteAt (goodBody.set 11 0) 12 = run.params.endMark ∧
        byteAt (goodBody.set 11 0) 11 ≠ xorAll ((goodBody.set 11 0).take 11)) ∧
      (byteAt goodBody 12 = run.params.endMark ∧ byteAt goodBody 11 = xorAll (goodBody.take 11)) := by decide

theorem witness_OneAcceptedBodyPerContent : (goodBody.take 11).length = 11 := by decide

theorem witness_SingleBitSensitivity :
    goodBody.length = 13 ∧ decodeStatusFrame T goodBody = .ok ⟨0x20, 0x84, 0x52, d1, 0xED⟩ ∧
      (0 : Nat) < 12 ∧ (11 : Nat) < 12 ∧ (0 : Nat) ≠ 11 ∧ (7 : Nat) < 8 := by decide

theorem witness_ChecksumRoundTrip :
    goodBody.length = 13 ∧ decodeStatusFrame T goodBody = .ok ⟨0x20, 0x84, 0x52, d1, 0xED⟩ := by decide

/-- Both clauses, at the two ends of each. -/
theorem witness_ModeReport :
    ((0x00 : Byte).toNat, Mode.auto) ∈ [(0, Mode.auto), (1, .cool), (2, .dry), (3, .fan), (4, .heat)] ∧
      ((0x04 : Byte).toNat, Mode.heat) ∈ [(0, Mode.auto), (1, .cool), (2, .dry), (3, .fan), (4, .heat)] ∧
      5 ≤ (0x05 : Byte).toNat ∧ 5 ≤ (0xFF : Byte).toNat := by decide

/-- Every clause has a byte, and the four fan clauses exclude each other. -/
theorem witness_StatusReport :
    (0x80 : Byte) &&& 0x80 ≠ 0 ∧ (0x7F : Byte) &&& 0x80 = 0 ∧ (0xFA : Byte) &&& 0x0F = 0x0A ∧
      (0x1C : Byte) &&& 0x0F = 0x0C ∧ (0xFD : Byte) &&& 0x0F = 0x0D ∧
      ((0xAB : Byte) &&& 0x0F ≠ 0x0A ∧ (0xAB : Byte) &&& 0x0F ≠ 0x0C ∧ (0xAB : Byte) &&& 0x0F ≠ 0x0D) := by
  decide

theorem witness_OtherCommandsChangeNothing : (0x54 : Byte) ≠ 0x52 ∧ (0x54 : Byte) ≠ 0x53 := by decide

theorem witness_InterpretDispatchesOnTheCommand :
    (⟨0, 0, 0x53, d1, 0⟩ : Frame).command = 0x53 ∧ (⟨0, 0, 0x52, d1, 0⟩ : Frame).command = 0x52 ∧
      (⟨0, 0, 0x51, d1, 0⟩ : Frame).command ≠ 0x53 ∧ (⟨0, 0, 0x51, d1, 0⟩ : Frame).command ≠ 0x52 := by decide

theorem witness_FanAndTemperatureDoNotOverlap :
    T.valid = true ∧ (⟨.on, .dry, .mid, 31⟩ : DeviceState).temperature.toNat ≤ 31 := by decide

/-- The one hypothesis of the statements on the store, the queue, the transport calls and `SET`. -/
theorem witness_running : run.lifecycle = .running := by decide

/-- The three clauses of `TryDequeue`: an entry, an entry that holds the guard, none. -/
theorem witness_TryDequeuePopsTheHead :
    run.lifecycle = .running ∧ (setQueue [a, b] run).cq ++ waitingEntry (setQueue [a, b] run) = [a, b] ∧
      ({ run with gCQ := some (1, a) } : State).cq ++ waitingEntry { run with gCQ := some (1, a) } = [a] ∧
      run.cq ++ waitingEntry run = [] := by decide

theorem witness_FifoOrder : run.lifecycle = .running ∧ run.cq = [] ∧ run.gCQ = none := by decide

theorem witness_QueueLosesAndReordersNothing :
    (setQueue [a] run).lifecycle = .running ∧ (setQueue [a] run).gCQ = none := by decide

theorem witness_ReadBytesMayReturnAnyLength :
    (setRx [1, 2] run).lifecycle = .running ∧ 0 ≤ 2 ∧ 0 ≤ (setRx [1, 2] run).transport.rx.length ∧
      2 ≤ 2 ∧ 2 ≤ (setRx [1, 2] run).transport.rx.length := by decide

theorem witness_RejectedEncodingsEndTheTick :
    run.lifecycle = .running ∧ run.worker.phase = .idle ∧ (Instr.rejectNotStart 0).wf run.params = true ∧
      (Instr.rejectTruncated []).wf run.params = true ∧
      (Instr.rejectTruncated (goodBody.take 12)).wf run.params = true ∧
      (Instr.rejectInvalidEnd (goodBody.set 12 0x35)).wf run.params = true ∧
      (Instr.rejectChecksum (goodBody.set 11 0)).wf run.params = true := by decide

/-- The gate at its boundary; the last clause in both ways. -/
theorem witness_OpenGateTransmitsTheHead :
    let s := withWaits [180] (setQueue [a, b] run)
    s.lifecycle = .running ∧ s.worker.phase = .idle ∧ s.world.waits = [180] ∧ 180 ≤ 180 ∧
      s.cq ++ waitingEntry s = [a, b] ∧ s.params.addrMarker ≠ s.params.addrRemote ∧
      (0x21 : Byte) ≠ (base T2).params.addrUnit := by decide

theorem witness_ClosedGateLosesTheHead :
    let s := withWaits [181] (setQueue [a] run)
    s.lifecycle = .running ∧ s.worker.phase = .idle ∧ s.world.waits = [181] ∧ 180 < 181 ∧
      s.cq ++ waitingEntry s = [a] ∧ s.params.addrMarker ≠ s.params.addrRemote := by decide

theorem witness_OpportunityWithEmptyQueue :
    run.lifecycle = .running ∧ run.worker.phase = .idle ∧ run.cq = [] ∧ run.gCQ = none ∧
      run.params.addrMarker ≠ run.params.addrRemote := by decide

/-- The three rows; `0x54` stands for the commands of row 4. -/
theorem witness_StatusFramesUpdateTheStore :
    run.lifecycle = .running ∧ run.worker.phase = .idle ∧ run.params.addrMarker ≠ run.params.addrRemote ∧
      (0x54 : Byte) ≠ 0x52 ∧ (0x54 : Byte) ≠ 0x53 := by decide

theorem witness_UnaddressedFramesCauseNothing :
    run.lifecycle = .running ∧ run.worker.phase = .idle ∧
      (Instr.unaddressed 0x20 0x85 0x52 d1).wf run.params = true ∧
      (Instr.unaddressed 0x21 0x84 0x52 d1).wf run.params = true := by decide

theorem witness_BothClassificationsApply :
    let s := withWaits [181] (setQueue [a] (base T2))
    s.lifecycle = .running ∧ s.worker.phase = .idle ∧ s.params.addrMarker = s.params.addrRemote ∧
      s.world.waits = [181] ∧ s.cq ++ waitingEntry s = [a] ∧
      (base T2).cq ++ waitingEntry (base T2) = [] := by decide

theorem witness_EveryTickEnds : run.lifecycle = .running ∧ run.worker.phase = .idle := by decide

theorem witness_TickWithoutAFrame :
    run.lifecycle = .running ∧ run.worker.phase = .idle ∧
      run.transport.rx.head? ≠ some run.params.startMark ∧
      (setRx [0x34] run).transport.rx.head? ≠ some run.params.startMark := by decide

theorem witness_TickDropsATruncatedFrame :
    let s := withBursts [13] (setRx (0x32 :: goodBody.take 12) run)
    s.lifecycle = .running ∧ s.worker.phase = .idle ∧
      s.transport.rx = s.params.startMark :: goodBody.take 12 ∧ (goodBody.take 12).length < 13 ∧
      s.world.bursts.head? = some 13 := by decide

theorem witness_StepRunsTheDecodedInstruction :
    let s := withSched [.tick] (withBursts [13] (setRx statusBytes run))
    let s1 : State := { s with world := { s.world with sched := [] }, actor := .worker }
    s.lifecycle = .running ∧ s.worker.phase = .idle ∧ s.shutdownReq = false ∧ s.world.sched = [.tick] ∧
      (fetch s1).1 = statusBytes ∧ decode s.params statusBytes = .instr (.status52 d1) [] := by decide

theorem witness_StepSendsTheEncodedInstruction :
    let s0 := withSched [.worker] run
    let s : State := { s0 with worker := { s0.worker with phase := .oppWrite, txb := setBytes } }
    s.lifecycle = .running ∧ s.worker.phase = .oppWrite ∧ s.world.sched = [.worker] ∧
      decodeSent s.params s.worker.txb = some (.set 0xB8 1 0xF4) := by decide

theorem witness_StepRunsTheCall :
    let s := withSched [.call 1 .getStatus] { run with gDS := some 2 }
    s.world.sched = [.call 1 .getStatus] ∧ s.gDS ≠ some 1 ∧ (∀ d, s.gCQ ≠ some (1, d)) :=
  ⟨rfl, by decide, fun _ h => nomatch h⟩

theorem witness_WorkerFollowsThePhaseTable :
    let s := withSched [.worker] run
    s.lifecycle = .running ∧ s.shutdownReq = false ∧ s.world.sched = [.worker] ∧
      (∃ t, step s = .next t) ∧ (Phase.idle, Phase.poll) ∈ phaseEdges :=
  ⟨rfl, rfl, rfl, ⟨_, rfl⟩, by decide⟩

theorem inv_run : Inv run :=
  inv_of_idle rfl rfl (by decide) rfl storeDecoded_initial (by intro n d h; exact nomatch h)

/-- Two callers, one inside `GetStatus` and one inside `RequestChange`, and nobody scheduled. -/
def copying : State := { run with gDS := some 1, gCQ := some (2, a) }

theorem inv_copying : Inv copying :=
  inv_of_idle rfl rfl (by decide) rfl storeDecoded_initial (by
    intro n d h hq
    cases h
    cases hq)

theorem witness_WorkerNeverSticks :
    Inv run ∧ run.lifecycle = .running ∧ run.world.sched = [] ∧
      Inv copying ∧ copying.lifecycle = .running ∧ copying.world.sched = [] :=
  ⟨inv_run, rfl, rfl, inv_copying, rfl, rfl⟩

/-- R43: left to itself the caller inside `RequestChange` completes. -/
theorem test_heldGuardIsFreed :
    ∃ t, step { run with gCQ := some (2, a) } = .next t ∧ t.gCQ = none ∧ t.cq = [a] ∧
      t.trace.replies = [(.caller 2, .unit)] := ⟨_, rfl, rfl, rfl, rfl⟩

theorem witness_PhasesRefineTheTick :
    run.lifecycle = .running ∧ run.worker.phase = .idle ∧ run.shutdownReq = false ∧
      (∃ t, step { run with world := { run.world with sched := .tick :: run.world.sched } } = .next t) ∧
      copying.lifecycle = .running ∧ copying.worker.phase = .idle ∧ copying.shutdownReq = false ∧
      ∃ t, step { copying with world := { copying.world with sched := .tick :: copying.world.sched } } =
        .next t :=
  ⟨rfl, rfl, rfl, ⟨_, rfl⟩, rfl, rfl, rfl, _, rfl⟩

theorem witness_StepKeepsInvariant : Inv run ∧ ∃ t, step run = .next t := ⟨inv_run, _, rfl⟩

/-- The worker about to write. -/
def writing : State :=
  { run with
    worker :=
      { run.worker with
        phase := .oppWrite, req := a, txb := encodeCommandFrame T a, el := 180
        frm := ⟨0x84, 0xAD, 0xD1, zeros, 0xF8⟩ } }

theorem inv_writing : Inv writing := by
  constructor <;> simp [writing, run, base, State.reset, Phase.inStep4, Phase.rank, tBudget,
    storeDecoded_initial, isOpportunity]
  · decide
  · decide

theorem witness_BusIsWrittenOnlyInAnOpportunity_phase :
    Inv writing ∧ ∃ t, step writing = .next t ∧ t.trace.written ≠ writing.trace.written :=
  ⟨inv_writing, _, rfl, by decide⟩

/-- The second clause: a whole tick over an opportunity, the gate open. -/
def sending : State :=
  withSched [.tick] (withWaits [0, 0, 180] (withBursts [13] (setRx oppBytes (setQueue [a] run))))

theorem witness_BusIsWrittenOnlyInAnOpportunity_tick :
    Inv sending ∧ ∃ t, step sending = .next t ∧ t.trace.written ≠ sending.trace.written :=
  ⟨inv_of_idle rfl rfl (by decide) rfl storeDecoded_initial (by intro n d h; exact nomatch h), _, rfl,
    by decide⟩

/-- A whole tick over a status frame. -/
def hearing : State := withSched [.tick] (withBursts [13] (setRx statusBytes run))

theorem witness_OnlyTheWorkerWritesTheStore :
    hearing.lifecycle = .running ∧ ∃ t, step hearing = .next t ∧ t.ds ≠ hearing.ds :=
  ⟨rfl, _, rfl, by decide⟩

theorem witness_OnlyTheWorkerRemovesEntries :
    let s := withSched [.call 1 (.requestChange b)] (setQueue [a] run)
    s.lifecycle = .running ∧ ∃ t, step s = .next t ∧ t.actor ≠ .worker :=
  ⟨rfl, _, rfl, by decide⟩

theorem witness_KnownFieldsStayKnown :
    let s := setStore b hearing
    s.lifecycle = .running ∧ (∃ t, step s = .next t ∧ t.lifecycle = .running) ∧
      s.ds.power ≠ .unknown ∧ s.ds.mode ≠ .unknown ∧ s.ds.fanSpeed ≠ .unknown :=
  ⟨rfl, ⟨_, rfl, by decide⟩, by decide, by decide, by decide⟩

theorem witness_ParametersNeverChange : run.lifecycle = .running ∧ ∃ t, step run = .next t := ⟨rfl, _, rfl⟩

/-- A caller inside `GetStatus`: a step that leaves it there, and the status update that has to wait for it. -/
theorem witness_NoTornReads :
    let s : State := withSched [.elapse 1] { run with gDS := some 1 }
    let u : State := { hearing with gDS := some 1 }
    s.lifecycle = .running ∧ s.gDS = some 1 ∧ (∃ t, step s = .next t ∧ t.gDS = some 1) ∧
      u.lifecycle = .running ∧ u.gDS = some 1 ∧ ∃ t, step u = .next t ∧ t.gDS = none :=
  ⟨rfl, rfl, ⟨_, rfl, by decide⟩, rfl, rfl, _, rfl, by decide⟩

theorem witness_TracesOnlyGrow : ∃ t, step run = .next t := ⟨_, rfl⟩

theorem witness_StartUpGivesTheResetValues :
    let s := withSched [.startUp T true [1]] State.reset
    let u : State := { s with lifecycle := .stopped }
    s.lifecycle = .uninit ∧ T.valid = true ∧ s.world.sched = [.startUp T true [1]] ∧
      u.lifecycle = .stopped ∧ u.world.sched = [.startUp T true [1]] := by decide

/-- The block after a start-up whose transport did not open. -/
def failed : State := { State.reset with lifecycle := .initFailed }

theorem inv_failed (ms : List Move) : Inv (withSched ms failed) := by
  constructor <;> simp [withSched, failed, State.reset, Phase.inStep4, Phase.rank, storeDecoded_initial]

theorem witness_TransportFailureIsFatal :
    let s := withSched [.startUp T false []] State.reset
    let u : State := withSched [.deliver [1]] failed
    let v : State := withSched [.startUp T true []] failed
    (s.lifecycle = .uninit ∧ T.valid = true ∧ s.world.sched = [.startUp T false []]) ∧
      (u.lifecycle = .initFailed ∧ Inv u ∧ ∃ t, step u = .next t) ∧
      v.lifecycle = .initFailed ∧ v.world.sched = [.startUp T true []] :=
  ⟨by decide, ⟨rfl, inv_failed _, _, rfl⟩, rfl, rfl⟩

/-- R136: code 5 has no return. -/
theorem test_noStartUpInInitFailed :
    step (withSched [.startUp T true []] failed) = .fault (.notRunning .initFailed) := rfl

theorem witness_ShutdownTakesEffectBetweenTicks :
    let s : State := { run with shutdownReq := true }
    let u : State := { atPhase .oppSettle run with shutdownReq := true }
    let v := withSched [.worker] u
    let w := withSched [.tick] s
    (s.lifecycle = .running ∧ s.shutdownReq = true ∧ s.world.sched = [] ∧ s.gDS = none ∧ s.gCQ = none ∧
      (∃ t, step s = .next t) ∧ s.worker.phase = .idle) ∧
    (u.lifecycle = .running ∧ u.shutdownReq = true ∧ u.world.sched = [] ∧ u.gDS = none ∧ u.gCQ = none ∧
      (∃ t, step u = .next t) ∧ u.worker.phase ≠ .idle) ∧
    (v.world.sched.head? = some .worker ∧ (∃ t, step v = .next t) ∧ v.worker.phase ≠ .idle) ∧
    (w.world.sched.head? = some .tick ∧ w.worker.phase = .idle ∧ ∃ t, step w = .next t) :=
  ⟨⟨rfl, rfl, rfl, rfl, rfl, ⟨_, rfl⟩, rfl⟩, ⟨rfl, rfl, rfl, rfl, rfl, ⟨_, rfl⟩, by decide⟩,
    ⟨rfl, ⟨_, rfl⟩, by decide⟩, rfl, rfl, _, rfl⟩

theorem witness_NoOperationOutsideRunning :
    State.reset.lifecycle ≠ .running ∧
      Instr.tick ∈ [Instr.snapshot, .getStatus, .tryDequeue, .nonEmpty, .tick] := by decide

theorem witness_TermsOutsideTheirDomainStop :
    (Instr.rejectNotStart 0x32).wf run.params = false ∧ (goodBody.take 10).length < 11 ∧
      (goodBody.take 12).length ≠ 13 ∧ (Instr.rejectTruncated []).wf State.reset.params = true ∧
      State.reset.lifecycle ≠ .running ∧ (atPhase .oppSettle run).lifecycle = .running ∧
      (atPhase .oppSettle run).worker.phase ≠ .idle := by decide

end Sys2Proof.Tests
end

section
/-! PROOFS. The codec's operations through `exec` (spec/40_codec.md R70 to R80, R88): what each call
answers, the fields of command `0x52` by their bytes, and the statements on them. -/
namespace Sys2Proof

@[simp] theorem xorAll_nil : xorAll [] = 0 := rfl

@[simp] theorem xorAll_cons (x : Byte) (xs : List Byte) : xorAll (x :: xs) = x ^^^ xorAll xs := rfl

/-- The data of a decoded body stand at indices 3 to 10. -/
theorem data_frameOfBody {raw : List Byte} (h : 11 ≤ raw.length) :
    (frameOfBody raw).data.toList = (raw.drop 3).take 8 :=
  calc (frameOfBody raw).data.toList
    _ = (frameOfBody raw).covered.drop 3 := rfl
    _ = (raw.take 11).drop 3 := by rw [covered_frameOfBody h]
    _ = (raw.drop 3).take 8 := List.drop_take

namespace Machine

/-! ### What the calls answer -/

theorem exec_checksum {bytes : List Byte} (h : chkSpan ≤ bytes.length) (s : State) :
    exec (.checksum bytes) s = .next (reply (.byte (checksum bytes)) s) := if_pos h

theorem exec_decodeStatusFrame {raw : List Byte} (h : raw.length = bodyLen) (s : State) :
    exec (.decodeStatusFrame raw) s = .next (reply (.decoded (decodeStatusFrame s.params raw)) s) := if_pos h

theorem exec_interpretStatusFrame (f : Frame) (prior : DeviceState) (s : State) :
    exec (.interpretStatusFrame f prior) s =
      .next (reply (.update (interpretStatusFrame f prior).1 (interpretStatusFrame f prior).2) s) := rfl

theorem exec_interpretCmd53 (d : Data) (prior : DeviceState) (s : State) :
    exec (.interpretCmd53 d prior) s =
      .next (reply (.update (interpret53 d prior).1 (interpret53 d prior).2) s) := rfl

theorem exec_interpretCmd52 (d : Data) (prior : DeviceState) (s : State) :
    exec (.interpretCmd52 d prior) s =
      .next (reply (.update (interpret52 d prior).1 (interpret52 d prior).2) s) := rfl

theorem exec_interpretOther {c : Byte} (h52 : c ≠ cmdStatus) (h53 : c ≠ cmdMode) (d : Data)
    (prior : DeviceState) (s : State) :
    exec (.interpretOther c d prior) s = .next (reply (.update prior Changed.none) s) :=
  if_neg (not_or.mpr ⟨h52, h53⟩)

/-! ### The fields of command `0x52` (R77, R78) -/

theorem powerOf_eq_on {b : Byte} (h : b &&& 0x80 ≠ 0) : powerOf b = .on := if_pos h

theorem powerOf_eq_off {b : Byte} (h : b &&& 0x80 = 0) : powerOf b = .off := if_neg (not_not.mpr h)

theorem fanOf_eq_min {b : Byte} (h : b &&& 0x0F = 0x0A) : fanOf b = .min := if_pos h

theorem fanOf_eq_mid {b : Byte} (h : b &&& 0x0F = 0x0C) : fanOf b = .mid :=
  (if_neg fun hmin => absurd (h.symm.trans hmin) (by decide)).trans (if_pos h)

theorem fanOf_eq_max {b : Byte} (h : b &&& 0x0F = 0x0D) : fanOf b = .max :=
  (if_neg fun hmin => absurd (h.symm.trans hmin) (by decide)).trans
    ((if_neg fun hmid => absurd (h.symm.trans hmid) (by decide)).trans (if_pos h))

theorem fanOf_eq_auto {b : Byte} (hmin : b &&& 0x0F ≠ 0x0A) (hmid : b &&& 0x0F ≠ 0x0C)
    (hmax : b &&& 0x0F ≠ 0x0D) : fanOf b = .auto :=
  (if_neg hmin).trans ((if_neg hmid).trans (if_neg hmax))

/-! ### The statements -/

/-- Settles O5: the buffer reaches index 10, so the call answers, and `checksum_append` drops the rest. -/
theorem checksumIsXorOfElevenBytes : Obligations.ChecksumIsXorOfElevenBytes := by
  unfold Obligations.ChecksumIsXorOfElevenBytes
  intro b0 b1 b2 b3 b4 b5 b6 b7 b8 b9 b10 rest s
  have hlen : chkSpan ≤ ([b0, b1, b2, b3, b4, b5, b6, b7, b8, b9, b10] ++ rest).length := by
    simp [chkSpan]
  rw [exec_checksum hlen, checksum_append rfl]
  simp [BitVec.xor_assoc]

/-- Settles O6, by the three answers of `decodeStatusFrame_cases`: each meets the hypotheses of one
clause only. -/
theorem decodeStatusFrameResults : Obligations.DecodeStatusFrameResults := by
  unfold Obligations.DecodeStatusFrameResults
  intro raw s hlen
  have hexec := exec_decodeStatusFrame hlen s
  rcases decodeStatusFrame_cases s.params raw with ⟨hend, hr⟩ | ⟨hend, hsum, hr⟩ | ⟨hend, hsum, hr⟩ <;>
    rw [hr] at hexec
  · exact ⟨fun _ => hexec, fun h => absurd h hend, fun h => absurd h hend⟩
  · exact ⟨fun h => absurd hend h, fun _ _ => hexec, fun _ h => absurd h hsum⟩
  · exact ⟨fun h => absurd hend h, fun _ h => absurd hsum h, fun _ _ =>
      ⟨frameOfBody raw, hexec, rfl, rfl, rfl, data_frameOfBody (by omega), rfl⟩⟩

/-- Settles O11, field by field: temperature, power, fan speed, mode, then the four reports. -/
theorem statusReport : Obligations.StatusReport := by
  unfold Obligations.StatusReport
  intro d prior s
  exact ⟨_, _, exec_interpretCmd52 d prior s, temperatureOf_toNat d.d0, powerOf_eq_on, powerOf_eq_off,
    fanOf_eq_min, fanOf_eq_mid, fanOf_eq_max, fanOf_eq_auto, rfl, bne_iff_ne, bne_iff_ne, bne_iff_ne, rfl⟩

/-- Settles O12: a command that is neither `0x52` nor `0x53` is in the row's domain. -/
theorem otherCommandsChangeNothing : Obligations.OtherCommandsChangeNothing :=
  fun _ d prior s h52 h53 => exec_interpretOther h52 h53 d prior s

/-- Settles O13, by the three commands of `interpretStatusFrame_cases`. -/
theorem interpretDispatchesOnTheCommand : Obligations.InterpretDispatchesOnTheCommand := by
  unfold Obligations.InterpretDispatchesOnTheCommand
  intro f prior s
  refine ⟨_, _, exec_interpretStatusFrame f prior s, ?_⟩
  rcases interpretStatusFrame_cases f prior with ⟨hc, hr⟩ | ⟨hc, hr⟩ | ⟨h53, h52, hr⟩ <;> rw [hr]
  · exact ⟨fun _ => exec_interpretCmd53 f.data prior s, fun h => absurd (hc.symm.trans h) (by decide),
      fun h => absurd hc h⟩
  · exact ⟨fun h => absurd (hc.symm.trans h) (by decide), fun _ => exec_interpretCmd52 f.data prior s,
      fun _ h => absurd hc h⟩
  · exact ⟨fun h => absurd h h53, fun h => absurd h h52, fun _ _ => ⟨rfl, rfl⟩⟩

end Machine
end Sys2Proof
end

section
/-! PROOFS. Encoding and decoding (spec/30_encoding.md R50, R53, R58, R59): the encodings of well-formed
instructions are single bytes, truncated frames and whole bodies, and each whole body has one row. -/
namespace Sys2Proof

open Machine (recordOf)

/-! ### The row of a frame and of a body -/

theorem rowOfBody_of_ok {p : Params} {raw : List Byte} {f : Frame} (h : decodeStatusFrame p raw = .ok f) :
    rowOfBody p raw = rowOfFrame p f := by
  rw [rowOfBody, h]

theorem rowOfBody_wireFrame (p : Params) (a b c : Byte) (d : Data) :
    rowOfBody p ((wireFrame p a b c d).drop 1) = rowOfFrame p (recordOf a b c d) :=
  rowOfBody_of_ok (decode_wireFrame_body p a b c d)

theorem rowOfBody_of_bad_end {p : Params} {raw : List Byte} (h : byteAt raw 12 ≠ p.endMark) :
    rowOfBody p raw = .rejectInvalidEnd raw := by
  rw [rowOfBody, decodeStatusFrame, if_pos h]

theorem rowOfBody_of_bad_checksum {p : Params} {raw : List Byte} (h : byteAt raw 12 = p.endMark)
    (hsum : byteAt raw 11 ≠ checksum raw) : rowOfBody p raw = .rejectChecksum raw := by
  rw [rowOfBody, decodeStatusFrame, if_neg (not_not.mpr h), if_pos hsum]

/-- The three rows a body can have, each with the test that gives it (R53, R58). -/
theorem rowOfBody_cases (p : Params) (raw : List Byte) :
    (byteAt raw 12 ≠ p.endMark ∧ rowOfBody p raw = .rejectInvalidEnd raw) ∨
    (byteAt raw 12 = p.endMark ∧ byteAt raw 11 ≠ checksum raw ∧ rowOfBody p raw = .rejectChecksum raw) ∨
    (byteAt raw 12 = p.endMark ∧ byteAt raw 11 = checksum raw ∧
      rowOfBody p raw = rowOfFrame p (frameOfBody raw)) := by
  rcases decodeStatusFrame_cases p raw with ⟨hend, hr⟩ | ⟨hend, hsum, hr⟩ | ⟨hend, hsum, hr⟩
  · exact .inl ⟨hend, rowOfBody_of_bad_end hend⟩
  · exact .inr (.inl ⟨hend, hsum, rowOfBody_of_bad_checksum hend hsum⟩)
  · exact .inr (.inr ⟨hend, hsum, rowOfBody_of_ok hr⟩)

/-- The four rows a record can have, each with the addresses and the command that give it (R53). -/
theorem rowOfFrame_cases (p : Params) (f : Frame) :
    (f.destination = p.addrMarker ∧ rowOfFrame p f = .opportunity f.source f.command f.data) ∨
    (f.destination ≠ p.addrMarker ∧ f.source = p.addrUnit ∧ f.destination = p.addrRemote ∧
      ((f.command = cmdStatus ∧ rowOfFrame p f = .status52 f.data) ∨
        (f.command = cmdMode ∧ rowOfFrame p f = .mode53 f.data) ∨
        (f.command ≠ cmdStatus ∧ f.command ≠ cmdMode ∧
          rowOfFrame p f = .statusOther f.command f.data))) ∨
    (f.destination ≠ p.addrMarker ∧ ¬(f.source = p.addrUnit ∧ f.destination = p.addrRemote) ∧
      rowOfFrame p f = .unaddressed f.source f.destination f.command f.data) := by
  by_cases ho : f.destination = p.addrMarker
  · exact .inl ⟨ho, by simp [rowOfFrame, isOpportunity, ho]⟩
  by_cases hs : f.source = p.addrUnit ∧ f.destination = p.addrRemote
  · refine .inr (.inl ⟨ho, hs.1, hs.2, ?_⟩)
    have hrow : rowOfFrame p f = if f.command = cmdStatus then .status52 f.data
        else if f.command = cmdMode then .mode53 f.data else .statusOther f.command f.data := by
      rw [rowOfFrame, if_neg (by simpa [isOpportunity] using ho), if_pos (by simpa [isStatus] using hs)]
    by_cases hc : f.command = cmdStatus
    · exact .inl ⟨hc, hrow.trans (if_pos hc)⟩
    by_cases hm : f.command = cmdMode
    · exact .inr (.inl ⟨hm, hrow.trans ((if_neg hc).trans (if_pos hm))⟩)
    · exact .inr (.inr ⟨hc, hm, hrow.trans ((if_neg hc).trans (if_neg hm))⟩)
  · refine .inr (.inr ⟨ho, hs, ?_⟩)
    rw [rowOfFrame, if_neg (by simpa [isOpportunity] using ho), if_neg (by simpa [isStatus] using hs)]

/-- The row of a record is well formed, and its bytes are the record's wire frame. -/
theorem rowOfFrame_wf_encode (p : Params) (f : Frame) :
    (rowOfFrame p f).wf p = true ∧
      encode p (rowOfFrame p f) = some (wireFrame p f.source f.destination f.command f.data) := by
  rcases rowOfFrame_cases p f with ⟨ho, e⟩ | ⟨ho, hs, hd, h⟩ | ⟨ho, hs, e⟩
  · rw [e, ho]
    exact ⟨rfl, rfl⟩
  · have hn : notMarker p p.addrRemote = true := by simpa [notMarker, ← hd] using ho
    rcases h with ⟨hc, e⟩ | ⟨hc, e⟩ | ⟨hc, hm, e⟩ <;> rw [e, hs, hd]
    · exact ⟨hn, by rw [hc]; rfl⟩
    · exact ⟨hn, by rw [hc]; rfl⟩
    · exact ⟨by simp [Instr.wf, hn, hc, hm], rfl⟩
  · rw [e]
    exact ⟨by simpa [Instr.wf, notMarker, ho, ← not_and_or] using hs, rfl⟩

/-- An accepted body after its start marker is the wire frame of its record (R50 to R52). -/
theorem wireFrame_of_accepted {p : Params} {raw : List Byte} (h : raw.length = 13)
    (hend : byteAt raw 12 = p.endMark) (hsum : byteAt raw 11 = checksum raw) :
    wireFrame p (frameOfBody raw).source (frameOfBody raw).destination (frameOfBody raw).command
      (frameOfBody raw).data = p.startMark :: raw := by
  have hcov : checksum (frameOfBody raw).covered = byteAt raw 11 := by
    rw [checksum_covered, covered_frameOfBody (by omega), hsum]
    rfl
  calc wireFrame p (frameOfBody raw).source (frameOfBody raw).destination (frameOfBody raw).command
        (frameOfBody raw).data
    _ = p.startMark :: ((frameOfBody raw).covered ++
          [checksum (frameOfBody raw).covered, p.endMark]) := rfl
    _ = p.startMark :: raw := by rw [hcov, ← hend, ← body_eq_of_length h]

/-- The row of a whole body is well formed, and its bytes are the body after its start marker. -/
theorem rowOfBody_wf_encode (p : Params) {raw : List Byte} (h : raw.length = bodyLen) :
    (rowOfBody p raw).wf p = true ∧ encode p (rowOfBody p raw) = some (p.startMark :: raw) := by
  rcases rowOfBody_cases p raw with ⟨hend, e⟩ | ⟨hend, hsum, e⟩ | ⟨hend, hsum, e⟩ <;> rw [e]
  · exact ⟨by simp only [Instr.wf, Bool.and_eq_true, beq_iff_eq, bne_iff_ne]; exact ⟨h, hend⟩, rfl⟩
  · exact ⟨by simp only [Instr.wf, Bool.and_eq_true, beq_iff_eq, bne_iff_ne]; exact ⟨⟨h, hend⟩, hsum⟩, rfl⟩
  · rw [← wireFrame_of_accepted h hend hsum]
    exact rowOfFrame_wf_encode p (frameOfBody raw)

/-- `SET` is named on transmit only. -/
theorem rowOfBody_ne_set (p : Params) (raw : List Byte) (y m q : Byte) : rowOfBody p raw ≠ .set y m q := by
  rcases rowOfBody_cases p raw with ⟨-, e⟩ | ⟨-, -, e⟩ | ⟨-, -, e⟩ <;> rw [e]
  · nofun
  · nofun
  · rcases rowOfFrame_cases p (frameOfBody raw) with ⟨-, e⟩ | ⟨-, -, -, ⟨-, e⟩ | ⟨-, e⟩ | ⟨-, -, e⟩⟩ |
      ⟨-, -, e⟩ <;> rw [e] <;> nofun

/-! ### What a well-formed instruction's bytes are -/

/-- A frame row is the row of the body of its wire frame, when it is the row of its record. -/
theorem wireFrame_is_body {p : Params} {a b c : Byte} {d : Data} {i : Instr} {w : List Byte}
    (hrow : rowOfFrame p (recordOf a b c d) = i) (hw : some (wireFrame p a b c d) = some w) :
    ∃ raw, raw.length = bodyLen ∧ i = rowOfBody p raw ∧ w = p.startMark :: raw := by
  cases hw
  exact ⟨(wireFrame p a b c d).drop 1, rfl, by rw [rowOfBody_wireFrame, hrow], rfl⟩

/-- The encodings there are (R50, R58): a `SET` frame, a byte that is no start marker, a start marker with
too few bytes after it, and a start marker with a whole body. -/
theorem encode_cases {p : Params} {i : Instr} {w : List Byte} (hwf : i.wf p = true)
    (hw : encode p i = some w) :
    (∃ y m q, i = .set y m q ∧ w = setFrame p y m q) ∨
    (∃ b, i = .rejectNotStart b ∧ b ≠ p.startMark ∧ w = [b]) ∨
    (∃ r, i = .rejectTruncated r ∧ r.length < bodyLen ∧ w = p.startMark :: r) ∨
    (∃ raw, raw.length = bodyLen ∧ i = rowOfBody p raw ∧ w = p.startMark :: raw) := by
  cases i with
  | opportunity source command data =>
    refine .inr (.inr (.inr (wireFrame_is_body ?_ hw)))
    simp [rowOfFrame, isOpportunity, recordOf]
  | status52 data =>
    have hn : p.addrRemote ≠ p.addrMarker := by simpa [Instr.wf, notMarker] using hwf
    refine .inr (.inr (.inr (wireFrame_is_body ?_ hw)))
    simp [rowOfFrame, isOpportunity, isStatus, recordOf, hn]
  | mode53 data =>
    have hn : p.addrRemote ≠ p.addrMarker := by simpa [Instr.wf, notMarker] using hwf
    refine .inr (.inr (.inr (wireFrame_is_body ?_ hw)))
    simp [rowOfFrame, isOpportunity, isStatus, recordOf, hn, cmdMode, cmdStatus]
  | statusOther command data =>
    have hn : (p.addrRemote ≠ p.addrMarker ∧ command ≠ cmdStatus) ∧ command ≠ cmdMode := by
      simpa [Instr.wf, notMarker] using hwf
    refine .inr (.inr (.inr (wireFrame_is_body ?_ hw)))
    simp [rowOfFrame, isOpportunity, isStatus, recordOf, hn]
  | unaddressed source destination command data =>
    have hn : destination ≠ p.addrMarker ∧ ¬(source = p.addrUnit ∧ destination = p.addrRemote) := by
      simpa [Instr.wf, notMarker, ← not_and_or] using hwf
    refine .inr (.inr (.inr (wireFrame_is_body ?_ hw)))
    simp [rowOfFrame, isOpportunity, isStatus, recordOf, hn]
  | set y m q =>
    cases hw
    exact .inl ⟨y, m, q, rfl, rfl⟩
  | rejectNotStart b =>
    cases hw
    exact .inr (.inl ⟨b, rfl, by simpa [Instr.wf] using hwf, rfl⟩)
  | rejectTruncated r =>
    cases hw
    exact .inr (.inr (.inl ⟨r, rfl, by simpa [Instr.wf] using hwf, rfl⟩))
  | rejectInvalidEnd raw =>
    cases hw
    simp only [Instr.wf, Bool.and_eq_true, beq_iff_eq, bne_iff_ne] at hwf
    obtain ⟨hlen, hend⟩ := hwf
    exact .inr (.inr (.inr ⟨raw, hlen, (rowOfBody_of_bad_end hend).symm, rfl⟩))
  | rejectChecksum raw =>
    cases hw
    simp only [Instr.wf, Bool.and_eq_true, beq_iff_eq, bne_iff_ne] at hwf
    obtain ⟨⟨hlen, hend⟩, hsum⟩ := hwf
    exact .inr (.inr (.inr ⟨raw, hlen, (rowOfBody_of_bad_checksum hend hsum).symm, rfl⟩))
  | _ => exact nomatch hw

/-! ### What the decoder makes of a stream -/

theorem decode_notStart {p : Params} {b : Byte} (h : b ≠ p.startMark) (rest : List Byte) :
    decode p (b :: rest) = .instr (.rejectNotStart b) rest := by
  simp [decode, h]

theorem decode_truncated {p : Params} {r : List Byte} (h : r.length < bodyLen) :
    decode p (p.startMark :: r) = .instr (.rejectTruncated r) [] := by
  simp [decode, h]

theorem decode_body {p : Params} {raw : List Byte} (h : raw.length = bodyLen) (rest : List Byte) :
    decode p (p.startMark :: (raw ++ rest)) = .instr (rowOfBody p raw) rest := by
  have hlong : ¬(raw ++ rest).length < bodyLen := by simp [h]
  simp only [decode, ne_eq, not_true_eq_false, if_false, hlong]
  rw [← h, List.take_left, List.drop_left]

theorem decodeSent_setFrame (p : Params) (y m q : Byte) :
    decodeSent p (setFrame p y m q) = some (.set y m q) := if_pos rfl

theorem decodeSent_eq_some {p : Params} {w : List Byte} {i : Instr} (h : decodeSent p w = some i) :
    ∃ y m q, i = .set y m q ∧ setFrame p y m q = w := by
  unfold decodeSent at h
  split at h
  · cases h
    exact ⟨_, _, _, rfl, ‹_›⟩
  · cases h

/-! ### The statements -/

/-- Settles O2, by the four kinds of encoding. -/
theorem decodeOfEncodeIsTheInstruction : Obligations.DecodeOfEncodeIsTheInstruction := by
  unfold Obligations.DecodeOfEncodeIsTheInstruction
  intro p i w hwf hw
  rcases encode_cases hwf hw with ⟨y, m, q, rfl, rfl⟩ | ⟨b, rfl, hb, rfl⟩ | ⟨r, rfl, hr, rfl⟩ |
    ⟨raw, hlen, rfl, rfl⟩
  · exact ⟨fun _ _ _ _ => decodeSent_setFrame p y m q, fun h => absurd rfl (h y m q),
      fun h => absurd rfl (h y m q)⟩
  · exact ⟨fun _ _ _ h => (nomatch h), fun _ => decode_notStart hb [],
      fun _ _ rest => decode_notStart hb rest⟩
  · exact ⟨fun _ _ _ h => (nomatch h), fun _ => decode_truncated hr, fun _ h => absurd rfl (h r)⟩
  · exact ⟨fun y m q h => absurd h (rowOfBody_ne_set p raw y m q),
      fun _ => by simpa using decode_body (p := p) hlen [], fun _ _ rest => decode_body hlen rest⟩

/-- Settles O3, by the first byte and the number of bytes after it. -/
theorem encodeOfDecodeIsTheBytes : Obligations.EncodeOfDecodeIsTheBytes := by
  unfold Obligations.EncodeOfDecodeIsTheBytes
  intro p bytes hne
  obtain ⟨b, rest, rfl⟩ := List.exists_cons_of_ne_nil hne
  by_cases hb : b = p.startMark
  · subst hb
    by_cases hlen : rest.length < bodyLen
    · exact ⟨_, _, [], decode_truncated hlen, by simpa [Instr.wf] using hlen, rfl, by simp⟩
    · have hraw : (rest.take bodyLen).length = bodyLen := by simpa using hlen
      obtain ⟨hwf, henc⟩ := rowOfBody_wf_encode p hraw
      have hdec := decode_body (p := p) hraw (rest.drop bodyLen)
      rw [List.take_append_drop] at hdec
      exact ⟨_, _, _, hdec, hwf, henc, by simp⟩
  · exact ⟨_, _, rest, decode_notStart hb rest, by simpa [Instr.wf] using hb, rfl, rfl⟩

/-- Settles O4, by the kinds of encoding, and by what `decodeSent` tests. -/
theorem framesAreFourteenBytes : Obligations.FramesAreFourteenBytes := by
  unfold Obligations.FramesAreFourteenBytes
  refine ⟨fun p i w hwf hw hns hnt => ?_, fun p w i h => ?_⟩
  · rcases encode_cases hwf hw with ⟨y, m, q, -, rfl⟩ | ⟨b, rfl, -, -⟩ | ⟨r, rfl, -, -⟩ |
      ⟨raw, hlen, -, rfl⟩
    · rfl
    · exact absurd rfl (hns b)
    · exact absurd rfl (hnt r)
    · simp [hlen, bodyLen]
  · obtain ⟨y, m, q, rfl, hset⟩ := decodeSent_eq_some h
    exact congrArg some hset

/-- Settles O1: the decoder computes on written-out bytes. -/
theorem writtenOutFramesDecode : Obligations.WrittenOutFramesDecode := by
  unfold Obligations.WrittenOutFramesDecode
  decide

end Sys2Proof
end

section
/-! PROOFS. The Frame Codec (spec/40_codec.md R70 to R87): which bodies are accepted, what flipped bits do to
them, the interpretation of command `0x53` and the command frame. -/
namespace Sys2Proof

open Machine (recordOf encodeCommandFrame)

/-! ### Accepted bodies (R72, R73) -/

/-- A body is accepted when it ends in the end marker and its byte 11 is the sum of those before it. -/
theorem accepted_iff {p : Params} {raw : List Byte} :
    (∃ f, decodeStatusFrame p raw = .ok f) ↔
      byteAt raw 12 = p.endMark ∧ byteAt raw 11 = xorAll (raw.take 11) := by
  rcases decodeStatusFrame_cases p raw with ⟨hend, e⟩ | ⟨hend, hsum, e⟩ | ⟨hend, hsum, e⟩ <;> rw [e]
  · exact ⟨nofun, fun h => absurd h.1 hend⟩
  · exact ⟨nofun, fun h => absurd h.2 hsum⟩
  · exact ⟨fun _ => ⟨hend, hsum⟩, fun _ => ⟨_, rfl⟩⟩

theorem body_split {raw : List Byte} (h : raw.length = 13) :
    raw = raw.take 11 ++ [byteAt raw 11, byteAt raw 12] := by
  rw [← covered_frameOfBody (by omega), ← body_eq_of_length h]

/-- Settles O7: over eleven bytes the accepted body is fixed by their sum and the end marker. -/
theorem oneAcceptedBodyPerContent : Obligations.OneAcceptedBodyPerContent := by
  unfold Obligations.OneAcceptedBodyPerContent
  intro p b hb
  have htake : (b ++ [xorAll b, p.endMark]).take 11 = b := by rw [← hb, List.take_left]
  refine ⟨b ++ [xorAll b, p.endMark], ⟨by simp [hb], htake, accepted_iff.mpr ⟨?_, ?_⟩⟩, ?_⟩
  · simp [byteAt, hb]
  · rw [htake]
    simp [byteAt, hb]
  · intro raw hlen htake' hok
    obtain ⟨hend, hsum⟩ := accepted_iff.mp hok
    rw [body_split hlen, hend, hsum, htake']

/-- Settles O9: the record's covered bytes are the first eleven, whose sum is byte 11. -/
theorem checksumRoundTrip : Obligations.ChecksumRoundTrip := by
  unfold Obligations.ChecksumRoundTrip
  intro p raw f hlen hok
  rcases decodeStatusFrame_cases p raw with ⟨-, e⟩ | ⟨-, -, e⟩ | ⟨-, hsum, e⟩ <;> cases e.symm.trans hok
  refine ⟨?_, rfl⟩
  rw [checksum_covered, covered_frameOfBody (by omega), ← hsum]
  rfl

/-! ### Flipped bits (R87 item 3) -/

/-- Flipping bits in one byte of a list flips the same bits of its sum. -/
theorem xorAll_set (m : Byte) {b : List Byte} {i : Nat} (h : i < b.length) :
    xorAll (b.set i (byteAt b i ^^^ m)) = xorAll b ^^^ m := by
  induction b generalizing i with
  | nil => exact absurd h (Nat.not_lt_zero i)
  | cons x xs ih =>
    cases i with
    | zero => simp [byteAt, BitVec.xor_assoc, BitVec.xor_comm]
    | succ i =>
      have := ih (Nat.lt_of_succ_lt_succ h)
      simp only [List.set_cons_succ, xorAll_cons]
      rw [show byteAt (x :: xs) (i + 1) = byteAt xs i from rfl, this, BitVec.xor_assoc]

theorem byteAt_set_ne {b : List Byte} {i k : Nat} (h : i ≠ k) (v : Byte) :
    byteAt (b.set i v) k = byteAt b k := by
  simp [byteAt, List.getD, List.getElem?_set_ne h]

theorem byteAt_set_eq {b : List Byte} {i : Nat} (h : i < b.length) (v : Byte) :
    byteAt (b.set i v) i = v := by
  simp [byteAt, List.getD, h]

/-- The sum of a body's first twelve bytes: those covered, and the checksum. -/
theorem xorAll_take_twelve {raw : List Byte} (h : raw.length = 13) :
    xorAll (raw.take 12) = xorAll (raw.take 11) ^^^ byteAt raw 11 := by
  match raw, h with
  | [_, _, _, _, _, _, _, _, _, _, _, _, _], _ => simp [byteAt, BitVec.xor_assoc]

theorem xorAll_take_twelve_eq_zero {raw : List Byte} (h : raw.length = 13) :
    xorAll (raw.take 12) = 0 ↔ byteAt raw 11 = xorAll (raw.take 11) := by
  rw [xorAll_take_twelve h, eq_comm (a := byteAt raw 11)]
  exact BitVec.xor_eq_zero_iff

/-- Flipping bits in one of the first twelve bytes flips them in their sum. -/
theorem xorAll_take_twelve_set (m : Byte) {raw : List Byte} {i : Nat} (h : raw.length = 13) (hi : i < 12) :
    xorAll ((raw.set i (byteAt raw i ^^^ m)).take 12) = xorAll (raw.take 12) ^^^ m := by
  have hb : byteAt raw i = byteAt (raw.take 12) i := by
    simp [byteAt, List.getD, hi]
  rw [List.take_set, hb]
  exact xorAll_set m (by rw [List.length_take]; omega)

theorem twoPow_ne_zero {j : Nat} (h : j < 8) : BitVec.twoPow 8 j ≠ 0#8 := by
  intro h0
  have := congrArg (fun b => b.getLsbD j) h0
  simp [h] at this

/-- Settles O8, by the sum of the first twelve bytes, which is 0 in an accepted body: one flip makes it a
power of two, two at one bit position leave it 0. -/
theorem singleBitSensitivity : Obligations.SingleBitSensitivity := by
  unfold Obligations.SingleBitSensitivity
  intro p raw f hlen hok
  obtain ⟨hend, hsum⟩ := accepted_iff.mp ⟨f, hok⟩
  have hzero : xorAll (raw.take 12) = 0#8 := (xorAll_take_twelve_eq_zero hlen).mpr hsum
  refine ⟨fun i j hi hj => ?_, fun j hj => ?_, fun i k j hi hk hik hj => ?_⟩
  · have hend' : byteAt (raw.set i (byteAt raw i ^^^ BitVec.twoPow 8 j)) 12 = p.endMark := by
      rw [byteAt_set_ne (by omega), hend]
    have hbad : byteAt (raw.set i (byteAt raw i ^^^ BitVec.twoPow 8 j)) 11 ≠
        checksum (raw.set i (byteAt raw i ^^^ BitVec.twoPow 8 j)) := by
      intro hc
      have := (xorAll_take_twelve_eq_zero (by simpa using hlen)).mpr hc
      rw [xorAll_take_twelve_set _ hlen hi, hzero, BitVec.zero_xor] at this
      exact twoPow_ne_zero hj this
    rw [decodeStatusFrame, if_neg (not_not.mpr hend'), if_pos hbad]
  · rw [decodeStatusFrame, byteAt_set_eq (by omega), if_pos]
    intro h
    exact twoPow_ne_zero hj ((BitVec.xor_right_inj p.endMark).mp (by rw [← hend, h, hend, BitVec.xor_zero]))
  · have hset : byteAt raw k = byteAt (raw.set i (byteAt raw i ^^^ BitVec.twoPow 8 j)) k :=
      (byteAt_set_ne hik _).symm
    have hlen' : (raw.set i (byteAt raw i ^^^ BitVec.twoPow 8 j)).length = 13 := by simpa using hlen
    rw [hset]
    refine accepted_iff.mpr ⟨?_, (xorAll_take_twelve_eq_zero (by simpa using hlen)).mp ?_⟩
    · rw [byteAt_set_ne (by omega), byteAt_set_ne (by omega), hend]
    · rw [xorAll_take_twelve_set _ hlen' hk, xorAll_take_twelve_set _ hlen hi, hzero, BitVec.xor_assoc,
        BitVec.xor_self, BitVec.xor_zero]
      rfl

namespace Machine

/-! ### Command `0x53` (R74) -/

theorem modeOf_eq_some {v : Byte} {m : Mode}
    (h : (v.toNat, m) ∈ [(0, Mode.auto), (1, .cool), (2, .dry), (3, .fan), (4, .heat)]) :
    modeOf v = some m := by
  simp only [List.mem_cons, Prod.mk.injEq, List.not_mem_nil, or_false] at h
  rcases h with ⟨hv, rfl⟩ | ⟨hv, rfl⟩ | ⟨hv, rfl⟩ | ⟨hv, rfl⟩ | ⟨hv, rfl⟩ <;> simp only [modeOf, hv]

theorem modeOf_eq_none {v : Byte} (h : 5 ≤ v.toNat) : modeOf v = none := by
  rw [← Option.not_isSome_iff_eq_none, modeOf_isSome]
  omega

/-- The reports of command `0x53`: the mode's alone, and only when it differs. -/
theorem interpret53_snd (d : Data) (prior : DeviceState) :
    (interpret53 d prior).2 =
      { Changed.none with mode := decide ((modeOf d.d7).getD prior.mode ≠ prior.mode) } := by
  unfold interpret53
  cases hm : modeOf d.d7 with
  | none => simp [Changed.none]
  | some m => by_cases hne : m = prior.mode <;> simp [hne, Changed.none]

/-- Settles O10: the fields of `interpret53_fst` and the reports of `interpret53_snd`, by the raw value. -/
theorem modeReport : Obligations.ModeReport := by
  unfold Obligations.ModeReport
  intro d prior s
  refine ⟨_, _, exec_interpretCmd53 d prior s, ?_⟩
  rw [interpret53_fst, interpret53_snd]
  refine ⟨rfl, rfl, rfl, rfl, rfl, rfl, fun m hm => ?_, fun h5 => ?_⟩
  · simp [modeOf_eq_some hm]
  · simp [modeOf_eq_none h5]

/-! ### Interpreting twice (R87 item 4) -/

theorem interpret53_idem (d : Data) (prior : DeviceState) :
    interpret53 d (interpret53 d prior).1 = ((interpret53 d prior).1, Changed.none) := by
  refine Prod.ext ?_ ?_
  · rw [interpret53_fst, interpret53_fst]
    cases modeOf d.d7 <;> rfl
  · rw [interpret53_snd, interpret53_fst]
    cases modeOf d.d7 <;> simp [Changed.none]

theorem interpret52_idem (d : Data) (prior : DeviceState) :
    interpret52 d (interpret52 d prior).1 = ((interpret52 d prior).1, Changed.none) := by
  simp [interpret52, Changed.none]

/-- Settles O14, by the command, which alone says which interpretation runs. -/
theorem interpretIsIdempotent : Obligations.InterpretIsIdempotent := by
  unfold Obligations.InterpretIsIdempotent
  intro f prior
  by_cases hm : f.command = cmdMode
  · have he : ∀ s, interpretStatusFrame f s = interpret53 f.data s := fun _ => if_pos hm
    rw [he, he]
    exact interpret53_idem f.data prior
  by_cases hs : f.command = cmdStatus
  · have he : ∀ s, interpretStatusFrame f s = interpret52 f.data s := fun _ =>
      (if_neg hm).trans (if_pos hs)
    rw [he, he]
    exact interpret52_idem f.data prior
  · have he : ∀ s, interpretStatusFrame f s = interpretOther s := fun _ => (if_neg hm).trans (if_neg hs)
    rw [he, he]
    rfl

/-! ### The command frame (R81 to R85) -/

theorem exec_encodeCommandFrame (d : DeviceState) (s : State) :
    exec (.encodeCommandFrame d) s = .next (reply (.bytes (encodeCommandFrame s.params d)) s) := rfl

/-- A command frame is the `SET` frame of its three operand bytes. -/
theorem encodeCommandFrame_eq_setFrame (p : Params) (d : DeviceState) :
    encodeCommandFrame p d =
      setFrame p (p.fanBits.of d.fanSpeed ||| d.temperature) (p.modeRaw.of d.mode) (p.powerRaw.of d.power) :=
  rfl

/-- Settles O15: the bytes are those of the definition; the checksum's zeros drop out. -/
theorem commandFrameBytes : Obligations.CommandFrameBytes := by
  unfold Obligations.CommandFrameBytes
  intro d s
  refine ⟨_, _, _, rfl, rfl, rfl, ?_⟩
  rw [exec_encodeCommandFrame]
  simp [encodeCommandFrame, fanTempOf, checksum, chkSpan, BitVec.xor_assoc]

/-- Settles O17: a command frame is a valid wire frame from `ADDR_REMOTE` to `ADDR_UNIT`. -/
theorem commandFramePassesTheDecoder : Obligations.CommandFramePassesTheDecoder := by
  unfold Obligations.CommandFramePassesTheDecoder
  intro p d
  rw [encodeCommandFrame_eq_setFrame]
  exact ⟨_, decode_wireFrame_body p _ _ _ _, rfl, rfl, rfl, rfl⟩

/-- R8 item 1: a legal fan pattern keeps to bits 7 to 5. -/
theorem fanBits_low_clear {p : Params} (h : p.valid = true) (f : FanSpeed) :
    p.fanBits.of f &&& 0x1F = 0 := by
  simp only [Params.valid, FanBits.valid, Bool.and_eq_true, beq_iff_eq] at h
  obtain ⟨⟨⟨⟨⟨⟨⟨hunknown, hauto⟩, hmin⟩, hmid⟩, hmax⟩, -⟩, -⟩, -⟩ := h
  cases f with
  | unknown => exact hunknown
  | auto => exact hauto
  | min => exact hmin
  | mid => exact hmid
  | max => exact hmax

theorem high_bits_of_low_clear : ∀ b : Byte, b &&& 0x1F = 0 → b &&& 0xE0 = b := by decide

theorem low_bits_of_le : ∀ b : Byte, b.toNat ≤ 31 → b &&& 0x1F = b ∧ b &&& 0xE0 = 0 := by decide

/-- Settles O16: the fan pattern lies in bits 7 to 5, the temperature in bits 4 to 0. -/
theorem fanAndTemperatureDoNotOverlap : Obligations.FanAndTemperatureDoNotOverlap := by
  unfold Obligations.FanAndTemperatureDoNotOverlap
  intro p d hv ht
  have hbyte : byteAt (encodeCommandFrame p d) 6 = p.fanBits.of d.fanSpeed ||| d.temperature := rfl
  have hfan := fanBits_low_clear hv d.fanSpeed
  obtain ⟨hlow, hhigh⟩ := low_bits_of_le d.temperature ht
  rw [hbyte, BitVec.and_or_distrib_right, BitVec.and_or_distrib_right, hfan, hlow, hhigh,
    high_bits_of_low_clear _ hfan]
  exact ⟨BitVec.or_zero, BitVec.zero_or⟩

end Machine
end Sys2Proof
end

section
/-! PROOFS. More rules of the operations a tick is made of: the two reads as equations, what steps 4 and 5
put into each field, and what a tick has taken from the transport when it classifies a frame. -/
namespace Sys2Proof.Machine

/-! ### The reads -/

/-- `ReadByte` answers the oldest waiting byte, if there is one, and drops it. -/
theorem readByte_eq (t : Nat) (s : State) :
    readByte t s = (s.transport.rx.head?, blockUpTo t (setRx s.transport.rx.tail s)) := by
  rcases readByte_cases t s with ⟨h, e⟩ | ⟨b, rest, h, e⟩ <;> rw [e, h]
  · have hself : setRx [] s = s := by rw [← h]; rfl
    rw [List.tail_nil, hself]
    rfl
  · rfl

/-- `ReadBytes` changes the receive buffer and the environment's part only. -/
@[simp] theorem readBytes_frame (n t : Nat) (s : State) :
    (readBytes n t s).2.params = s.params ∧ (readBytes n t s).2.lifecycle = s.lifecycle ∧
      (readBytes n t s).2.shutdownReq = s.shutdownReq ∧ (readBytes n t s).2.actor = s.actor ∧
      (readBytes n t s).2.ds = s.ds ∧ (readBytes n t s).2.gDS = s.gDS ∧
      (readBytes n t s).2.cq = s.cq ∧ (readBytes n t s).2.gCQ = s.gCQ ∧
      (readBytes n t s).2.worker = s.worker ∧ (readBytes n t s).2.trace = s.trace ∧
      (readBytes n t s).2.transport.config = s.transport.config :=
  ⟨rfl, rfl, rfl, rfl, rfl, rfl, rfl, rfl, rfl, rfl, rfl⟩

/-! ### Waiting for a guard, in the terms of the statements -/

theorem settleDS_replies_waiting (s : State) :
    (settleDS s).trace.replies = s.trace.replies ++ waitingCopyReply s := settleDS_replies s

theorem settleCQ_replies_waiting (s : State) :
    (settleCQ s).trace.replies = s.trace.replies ++ waitingEntryReply s := settleCQ_replies s

@[simp] theorem waitingEntryReply_of_free {s : State} (h : s.gCQ = none) : waitingEntryReply s = [] := by
  simp [waitingEntryReply, h]

@[simp] theorem waitingEntry_of_free {s : State} (h : s.gCQ = none) : waitingEntry s = [] := by
  simp [waitingEntry, h]

/-! ### Step 4 -/

@[simp] theorem opportunityStep_control (f : Frame) (s : State) :
    (opportunityStep f s).lifecycle = s.lifecycle ∧
      (opportunityStep f s).shutdownReq = s.shutdownReq ∧ (opportunityStep f s).actor = s.actor ∧
      (opportunityStep f s).world.sched = s.world.sched := by
  rcases opportunityStep_cases f s with ⟨-, e⟩ | ⟨-, -, e⟩ | ⟨_, _, -, -, -, e⟩ | ⟨_, _, -, -, -, e⟩ <;>
    simp [e]

/-- Step 4 frees the queue's guard when it runs. -/
theorem opportunityStep_gCQ (f : Frame) (s : State) :
    (opportunityStep f s).gCQ = if isOpportunity s.params f then none else s.gCQ := by
  rcases opportunityStep_cases f s with ⟨ho, e⟩ | ⟨ho, -, e⟩ | ⟨_, _, ho, -, -, e⟩ | ⟨_, _, ho, -, -, e⟩ <;>
    simp [e, ho]

/-- The caller whose guard step 4 waits for has its result. -/
theorem opportunityStep_replies (f : Frame) (s : State) :
    (opportunityStep f s).trace.replies =
      s.trace.replies ++ if isOpportunity s.params f then waitingEntryReply s else [] := by
  rcases opportunityStep_cases f s with ⟨ho, e⟩ | ⟨ho, -, e⟩ | ⟨_, _, ho, -, -, e⟩ | ⟨_, _, ho, -, -, e⟩ <;>
    simp [e, ho, settleCQ_replies_waiting]

/-- Step 4 emits nothing but a missed window. -/
theorem opportunityStep_events (f : Frame) (s : State) :
    ∃ es, (opportunityStep f s).trace.events = s.trace.events ++ es := by
  rcases opportunityStep_cases f s with ⟨-, e⟩ | ⟨-, -, e⟩ | ⟨_, _, -, -, -, e⟩ | ⟨_, _, -, -, -, e⟩ <;>
    simp [e]

/-! ### Step 5 -/

theorem statusStep_gDS (f : Frame) (s : State) :
    (statusStep f s).gDS = if isStatus s.params f then none else s.gDS := by
  unfold statusStep
  split <;> simp_all [statusUpdate_eq]

/-- The caller whose guard step 5 waits for has its copy, of the store before the update. -/
theorem statusStep_replies (f : Frame) (s : State) :
    (statusStep f s).trace.replies =
      s.trace.replies ++ if isStatus s.params f then waitingCopyReply s else [] := by
  unfold statusStep
  split <;> simp_all [statusUpdate_eq, settleDS_replies_waiting]

theorem statusStep_events (f : Frame) (s : State) :
    (statusStep f s).trace.events = s.trace.events ++ if isStatus s.params f then
      changedEvents s.ds (interpretStatusFrame f s.ds).1 (interpretStatusFrame f s.ds).2 else [] := by
  unfold statusStep
  split <;> simp_all [statusUpdate_eq]

/-! ### Both classifications -/

theorem classified_gDS (f : Frame) (s : State) :
    (classified f s).gDS = if isStatus s.params f then none else s.gDS := by
  simp [classified, statusStep_gDS]

theorem classified_gCQ (f : Frame) (s : State) :
    (classified f s).gCQ = if isOpportunity s.params f then none else s.gCQ := by
  obtain ⟨hq, -⟩ := statusStep_frame f (opportunityStep f s)
  rw [← opportunityStep_gCQ, ← hq.2]
  rfl

theorem waitingCopyReply_opportunityStep (f : Frame) (s : State) :
    waitingCopyReply (opportunityStep f s) = waitingCopyReply s := by
  simp [waitingCopyReply]

/-- Holders of guards get their results in the order of the steps: the entry's, then the copy's. -/
theorem classified_replies (f : Frame) (s : State) :
    (classified f s).trace.replies = s.trace.replies ++
      (if isOpportunity s.params f then waitingEntryReply s else []) ++
      (if isStatus s.params f then waitingCopyReply s else []) := by
  simp only [classified, endTick_trace, statusStep_replies, opportunityStep_replies,
    opportunityStep_params, waitingCopyReply_opportunityStep]

/-- The events of a classified frame: those of step 4, then one for each field that changed. -/
theorem classified_events (f : Frame) (s : State) :
    (classified f s).trace.events = (opportunityStep f s).trace.events ++ if isStatus s.params f then
      changedEvents s.ds (interpretStatusFrame f s.ds).1 (interpretStatusFrame f s.ds).2 else [] := by
  simp only [classified, endTick_trace, statusStep_events, opportunityStep_params, opportunityStep_ds]

/-! ### What a tick can do -/

/-- The state after taking bytes from the transport: `rest` still waits, and the environment has gone on. -/
def afterRead (rest : List Byte) (w : World) (s : State) : State := setRx rest { s with world := w }

@[simp] theorem afterRead_frame (rest : List Byte) (w : World) (s : State) :
    (afterRead rest w s).params = s.params ∧ (afterRead rest w s).lifecycle = s.lifecycle ∧
      (afterRead rest w s).shutdownReq = s.shutdownReq ∧ (afterRead rest w s).actor = s.actor ∧
      (afterRead rest w s).ds = s.ds ∧ (afterRead rest w s).gDS = s.gDS ∧
      (afterRead rest w s).cq = s.cq ∧ (afterRead rest w s).gCQ = s.gCQ ∧
      (afterRead rest w s).worker = s.worker ∧ (afterRead rest w s).trace = s.trace ∧
      (afterRead rest w s).transport.rx = rest ∧
      (afterRead rest w s).transport.config = s.transport.config ∧ (afterRead rest w s).world = w :=
  ⟨rfl, rfl, rfl, rfl, rfl, rfl, rfl, rfl, rfl, rfl, rfl, rfl, rfl⟩

/-- A tick takes at most 14 bytes from the front of the buffer; then it ends, with at most one condition
raised, or it classifies the frame those bytes were (R100 to R106). -/
theorem tickThrough_next (s : State) :
    ∃ rest w, (∃ k, k ≤ 14 ∧ rest = s.transport.rx.drop k) ∧
      w.sched = s.world.sched ∧ s.world.clock ≤ w.clock ∧
      ((∃ es, tickThrough s = endTick (emit es (afterRead rest w s))) ∨
        ∃ raw f, s.transport.rx = s.params.startMark :: raw ++ rest ∧ raw.length = 13 ∧
          decodeStatusFrame s.params raw = .ok f ∧ tickThrough s = classified f (afterRead rest w s)) := by
  rcases tickThrough_cases s with ⟨hrx, -, e⟩ | ⟨b, rest, hrx, -, -, e⟩ | ⟨rest, raw, s2, hrx, hread, -, e⟩
  · refine ⟨[], (blockUpTo s.params.tPoll s).world, ⟨0, by omega, by simp [hrx]⟩, by simp,
      (blockUpTo_clock_bounds _ s).1, .inl ⟨[], ?_⟩⟩
    rw [e, emit_nil, ← hrx]
    rfl
  · exact ⟨rest, (blockUpTo s.params.tPoll (setRx rest s)).world, ⟨1, by omega, by simp [hrx]⟩, by simp,
      (blockUpTo_clock_bounds _ s).1, .inl ⟨[], by rw [e, emit_nil]; rfl⟩⟩
  · obtain ⟨hrest, hlen, hs2, hsched, hclock⟩ := bodyRead_eq hread
    have hs2' : s2 = afterRead s2.transport.rx s2.world s := hs2
    have hp : s2.params = s.params := by rw [hs2']; rfl
    have hdrop : s2.transport.rx = s.transport.rx.drop (1 + raw.length) := by
      rw [hrx, hrest, Nat.add_comm, List.drop_succ_cons, List.drop_left]
    simp only [bodyLen] at hlen
    refine ⟨s2.transport.rx, s2.world, ⟨1 + raw.length, by omega, hdrop⟩, hsched, hclock, ?_⟩
    rw [e, ← hs2', ← hp]
    rcases withBody_cases raw s2 with ⟨-, e⟩ | ⟨-, -, e⟩ | ⟨-, -, e⟩ | ⟨hge, f, hf, e⟩
    · exact .inl ⟨_, e⟩
    · exact .inl ⟨_, e⟩
    · exact .inl ⟨_, e⟩
    · simp only [bodyLen] at hge
      refine .inr ⟨raw, f, ?_, by omega, hf, e⟩
      rw [hrx, hrest, hp]
      rfl

end Sys2Proof.Machine
end

section
/-! PROOFS. Moves (spec/60_exceptions.md R142, R168): what a move beside the worker leaves alone and what it
may add, and the like for a move of the worker. The statements on every step are read off these two. -/
namespace Sys2Proof.Machine

/-! ### No caller in two operations -/

/-- R40: the clause of the invariant on the guards. -/
def OneGuard (s : State) : Prop := ∀ n d, s.gDS = some n → s.gCQ ≠ some (n, d)

/-- Guards that are only freed stay with one caller each. -/
theorem OneGuard.of_freed {s t : State} (h : OneGuard s) (hd : t.gDS = s.gDS ∨ t.gDS = none)
    (hq : t.gCQ = s.gCQ ∨ t.gCQ = none) : OneGuard t := by
  intro n d hn
  rcases hd with hd | hd <;> rcases hq with hq | hq <;> rw [hd] at hn <;> rw [hq]
  · exact h n d hn
  · nofun
  · exact nomatch hn
  · exact nomatch hn

/-! ### Moves beside the worker -/

/-- What every move but the worker's and the start-up leaves alone, and what it may add. -/
structure SideMove (s t : State) : Prop where
  params : t.params = s.params
  lifecycle : t.lifecycle = s.lifecycle
  ds : t.ds = s.ds
  worker : t.worker = s.worker
  config : t.transport.config = s.transport.config
  clock : s.world.clock ≤ t.world.clock
  written : t.trace.written = s.trace.written
  events : t.trace.events = s.trace.events
  /-- A caller inside `GetStatus` stays there or has its copy. -/
  replies : ∃ r, t.trace.replies = s.trace.replies ++ r ∧
    ∀ n, s.gDS = some n → t.gDS = some n ∨ (Agent.caller n, Answer.state s.ds) ∈ r
  queue : ∃ q, t.cq = s.cq ++ q
  oneGuard : OneGuard s → OneGuard t
  /-- Outside `Running` no guard is taken and nothing is queued. -/
  outside : s.lifecycle ≠ .running → s.gDS = none → s.gCQ = none →
    t.gDS = none ∧ t.gCQ = none ∧ t.cq = s.cq

namespace SideMove

theorem trans {s u t : State} (h : SideMove s u) (k : SideMove u t) : SideMove s t where
  params := k.params.trans h.params
  lifecycle := k.lifecycle.trans h.lifecycle
  ds := k.ds.trans h.ds
  worker := k.worker.trans h.worker
  config := k.config.trans h.config
  clock := h.clock.trans k.clock
  written := k.written.trans h.written
  events := k.events.trans h.events
  replies := by
    obtain ⟨r, hr, hcopy⟩ := h.replies
    obtain ⟨r', hr', hcopy'⟩ := k.replies
    refine ⟨r ++ r', by rw [hr', hr, List.append_assoc], fun n hn => ?_⟩
    rcases hcopy n hn with hu | hmem
    · rw [← h.ds]
      exact (hcopy' n hu).imp_right fun hmem => List.mem_append_right r hmem
    · exact .inr (List.mem_append_left r' hmem)
  queue := by
    obtain ⟨q, hq⟩ := h.queue
    obtain ⟨q', hq'⟩ := k.queue
    exact ⟨q ++ q', by rw [hq', hq, List.append_assoc]⟩
  oneGuard := k.oneGuard ∘ h.oneGuard
  outside hr hd hq := by
    obtain ⟨hd', hq', hc⟩ := h.outside hr hd hq
    obtain ⟨hd'', hq'', hc'⟩ := k.outside (h.lifecycle ▸ hr) hd' hq'
    exact ⟨hd'', hq'', hc'.trans hc⟩

/-- A change of nothing but the environment's part, the receive buffer, the actor and the shutdown
request is no more than a side move. -/
theorem of_surroundings {s t : State} {rx : List Byte} {w : World} {b : Bool} {a : Agent}
    (hc : s.world.clock ≤ w.clock)
    (h : t = { setRx rx s with world := w, shutdownReq := b, actor := a }) : SideMove s t := by
  subst h
  exact ⟨rfl, rfl, rfl, rfl, rfl, hc, rfl, rfl, ⟨[], by simp, fun n hn => .inl hn⟩, ⟨[], by simp⟩, id,
    fun _ hd hq => ⟨hd, hq, rfl⟩⟩

theorem refl (s : State) : SideMove s s := of_surroundings (Nat.le_refl s.world.clock) rfl

theorem of_actAs (a : Agent) (s : State) : SideMove s (actAs a s) :=
  of_surroundings (Nat.le_refl s.world.clock) rfl

theorem of_reply (a : Answer) (s : State) : SideMove s (reply a s) :=
  ⟨rfl, rfl, rfl, rfl, rfl, Nat.le_refl _, rfl, rfl, ⟨_, rfl, fun n hn => .inl hn⟩, ⟨[], by simp⟩, id,
    fun _ hd hq => ⟨hd, hq, rfl⟩⟩

theorem of_settleDS (s : State) : SideMove s (settleDS s) where
  params := settleDS_params s
  lifecycle := settleDS_lifecycle s
  ds := settleDS_ds s
  worker := settleDS_worker s
  config := by simp
  clock := by simp
  written := settleDS_written s
  events := settleDS_events s
  replies := ⟨_, settleDS_replies_waiting s, fun n hn => .inr (by simp [waitingCopyReply, hn])⟩
  queue := ⟨[], by simp⟩
  oneGuard h := h.of_freed (.inr (settleDS_gDS s)) (.inl (settleDS_gCQ s))
  outside _ hd hq := by simp [hq]

theorem of_settleCQ (s : State) : SideMove s (settleCQ s) where
  params := settleCQ_params s
  lifecycle := settleCQ_lifecycle s
  ds := settleCQ_ds s
  worker := settleCQ_worker s
  config := by simp
  clock := by simp
  written := settleCQ_written s
  events := settleCQ_events s
  replies := ⟨_, settleCQ_replies_waiting s, fun n hn => .inl (by simpa using hn)⟩
  queue := ⟨_, settleCQ_cq_waiting s⟩
  oneGuard h := h.of_freed (.inl (settleCQ_gDS s)) (.inr (settleCQ_gCQ s))
  outside _ hd hq := by simp [settleCQ_of_free hq, hd, hq]

theorem of_enqueue (d : DeviceState) {s : State} (hr : s.lifecycle = .running) :
    SideMove s (enqueue d s) := by
  refine (of_settleCQ s).trans ⟨rfl, rfl, rfl, rfl, rfl, Nat.le_refl _, rfl, rfl,
    ⟨[], by simp [enqueue], fun n hn => .inl hn⟩, ⟨[d], rfl⟩, id, fun h => ?_⟩
  exact absurd ((settleCQ_lifecycle s).trans hr) h

theorem of_ite {s t : State} (c : Prop) [Decidable c] (h : SideMove s t) :
    SideMove s (if c then t else s) := by
  split
  · exact h
  · exact refl s

theorem of_returnFirst (n : Nat) (s : State) : SideMove s (returnFirst n s) :=
  (of_ite (s.gDS = some n) (of_settleDS s)).trans (of_ite _ (of_settleCQ _))

/-- Caller `n`, inside nothing else, takes the store's guard. -/
theorem of_takeStatus {n : Nat} {s : State} (hr : s.lifecycle = .running) (hd : s.gDS = none)
    (hq : ∀ d, s.gCQ ≠ some (n, d)) : SideMove s { s with gDS := some n } := by
  refine ⟨rfl, rfl, rfl, rfl, rfl, Nat.le_refl _, rfl, rfl, ⟨[], by simp, fun m hm => ?_⟩, ⟨[], by simp⟩,
    fun _ m d hm => ?_, fun h => absurd hr h⟩
  · exact nomatch hd.symm.trans hm
  · cases hm
    exact hq d

/-- Caller `n`, inside nothing else, takes the queue's guard. -/
theorem of_takeRequest {n : Nat} (d : DeviceState) {s : State} (hr : s.lifecycle = .running)
    (hd : s.gDS ≠ some n) : SideMove s { s with gCQ := some (n, d) } := by
  refine ⟨rfl, rfl, rfl, rfl, rfl, Nat.le_refl _, rfl, rfl, ⟨[], by simp, fun m hm => .inl hm⟩,
    ⟨[], by simp⟩, fun _ m e hm he => ?_, fun h => absurd hr h⟩
  cases he
  exact hd hm

theorem of_enterStatus (n : Nat) {s : State} (hr : s.lifecycle = .running) :
    SideMove s (enterStatus n s) := by
  have hfirst := of_returnFirst n s
  obtain ⟨-, -, -, -, -, -, -, -, -, -, hnq, -⟩ := returnFirst_frame n s
  refine ((hfirst.trans (of_settleDS _)).trans ?_).trans (of_actAs (.caller n) _)
  refine of_takeStatus ?_ (settleDS_gDS _) fun d => ?_
  · rw [settleDS_lifecycle, hfirst.lifecycle, hr]
  · rw [settleDS_gCQ]
    exact hnq d

theorem of_enterRequest (n : Nat) (d : DeviceState) {s : State} (hr : s.lifecycle = .running) :
    SideMove s (enterRequest n d s) := by
  have hfirst := of_returnFirst n s
  obtain ⟨-, -, -, -, -, -, -, -, -, hnd, -⟩ := returnFirst_frame n s
  refine ((hfirst.trans (of_settleCQ _)).trans ?_).trans (of_actAs (.caller n) _)
  refine of_takeRequest d ?_ ?_
  · rw [settleCQ_lifecycle, hfirst.lifecycle, hr]
  · rw [settleCQ_gDS]
    exact hnd

theorem of_call {n : Nat} {c : Call} {s t : State}
    (h : exec c.instr (actAs (.caller n) (returnFirst n s)) = .next t) : SideMove s t := by
  have hfirst := (of_returnFirst n s).trans (of_actAs (.caller n) _)
  rcases exec_call_next h with ⟨a, rfl⟩ | ⟨-, a, rfl⟩ | ⟨hr, d, rfl⟩
  · exact hfirst.trans (of_reply a _)
  · exact (hfirst.trans (of_settleDS _)).trans (of_reply a _)
  · exact (hfirst.trans (of_enqueue d hr)).trans (of_reply .unit _)

end SideMove

/-! ### The worker's moves -/

/-- What an edge and a whole tick of the worker leave alone, and what they may do. -/
structure WorkerMove (s t : State) : Prop where
  control : SameControl s t
  config : t.transport.config = s.transport.config
  time : TimePassed s t
  /-- The store is left alone, or it becomes the interpretation of a frame over its prior state. -/
  store : SameStore s t ∨ ∃ f, t.ds = (interpretStatusFrame f s.ds).1
  written : ∃ w, t.trace.written = s.trace.written ++ w
  events : ∃ e, t.trace.events = s.trace.events ++ e
  /-- A caller inside `GetStatus` stays there over an unchanged store or has its copy. -/
  replies : ∃ r, t.trace.replies = s.trace.replies ++ r ∧
    ∀ n, s.gDS = some n → (t.gDS = some n ∧ t.ds = s.ds) ∨ (Agent.caller n, Answer.state s.ds) ∈ r
  freed : (t.gDS = s.gDS ∨ t.gDS = none) ∧ (t.gCQ = s.gCQ ∨ t.gCQ = none)

theorem SameControl.lifecycle {s t : State} (h : SameControl s t) : t.lifecycle = s.lifecycle := h.2.1

theorem SameControl.actor {s t : State} (h : SameControl s t) : t.actor = s.actor := h.2.2.2

end Sys2Proof.Machine
end

section
/-! PROOFS. The worker's edges (spec/42_bus_worker.md R121) as one case analysis, and what the worker's
moves leave alone, an edge and a whole tick alike. -/
namespace Sys2Proof.Machine

/-! ### Rules for the worker's registers and the last edges of a tick -/

/-- The worker's registers become `w`. -/
def setWorker (w : Worker) (s : State) : State := { s with worker := w }

@[simp] theorem setWorker_frame (w : Worker) (s : State) :
    (setWorker w s).params = s.params ∧ (setWorker w s).lifecycle = s.lifecycle ∧
      (setWorker w s).shutdownReq = s.shutdownReq ∧ (setWorker w s).actor = s.actor ∧
      (setWorker w s).ds = s.ds ∧ (setWorker w s).gDS = s.gDS ∧ (setWorker w s).cq = s.cq ∧
      (setWorker w s).gCQ = s.gCQ ∧ (setWorker w s).trace = s.trace ∧
      (setWorker w s).transport = s.transport ∧ (setWorker w s).world = s.world ∧
      (setWorker w s).worker = w :=
  ⟨rfl, rfl, rfl, rfl, rfl, rfl, rfl, rfl, rfl, rfl, rfl, rfl⟩

/-- The status test changes the worker's registers and the draws only. -/
@[simp] theorem toStatusOrIdle_frame (s : State) :
    (toStatusOrIdle s).params = s.params ∧ (toStatusOrIdle s).lifecycle = s.lifecycle ∧
      (toStatusOrIdle s).shutdownReq = s.shutdownReq ∧ (toStatusOrIdle s).actor = s.actor ∧
      (toStatusOrIdle s).ds = s.ds ∧ (toStatusOrIdle s).gDS = s.gDS ∧ (toStatusOrIdle s).cq = s.cq ∧
      (toStatusOrIdle s).gCQ = s.gCQ ∧ (toStatusOrIdle s).trace = s.trace ∧
      (toStatusOrIdle s).transport = s.transport ∧
      (toStatusOrIdle s).world.sched = s.world.sched ∧
      (toStatusOrIdle s).world.clock = s.world.clock := by
  rcases toStatusOrIdle_cases s with ⟨-, e⟩ | ⟨-, e⟩ <;> rw [e] <;>
    exact ⟨rfl, rfl, rfl, rfl, rfl, rfl, rfl, rfl, rfl, rfl, rfl, rfl⟩

/-! ### The rows of R121 -/

/-- After the poll: the oldest byte stands in `SB`. -/
def polled (s : State) : State :=
  setWorker { s.worker with sb := s.transport.rx.head? }
    (blockUpTo s.params.tPoll (setRx s.transport.rx.tail s))

/-- After the body read: what the burst gave stands in `RXB`. -/
def bodyRead (s : State) : State :=
  setWorker { s.worker with rxb := (readBytes bodyLen s.params.tBody s).1 }
    (readBytes bodyLen s.params.tBody s).2

/-- At the gate: the elapsed time stands in `EL`. -/
def measured (s : State) : State :=
  setWorker { s.worker with el := s.world.clock - s.worker.t0 } s

/-- Every edge of the worker but the shutdown: the phase it leaves, its test, and the state it leads to. -/
inductive Edge (s t : State) : Prop
  | startTick (h : s.worker.phase = .idle) (hno : s.shutdownReq = false) (e : t = goTo .poll s)
  | noStart (h : s.worker.phase = .poll) (e : t = endTick (polled s))
  | start (h : s.worker.phase = .poll) (hb : s.transport.rx.head? = some s.params.startMark)
      (e : t = goTo .body (polled s))
  | truncated (h : s.worker.phase = .body) (n : Nat) (e : t = raise (.truncatedFrame n) (bodyRead s))
  | body (h : s.worker.phase = .body) (hlen : (bodyRead s).worker.rxb.length = bodyLen)
      (e : t = goTo .decode (bodyRead s))
  | rejected (h : s.worker.phase = .decode) (ev : Event) (e : t = raise ev s)
  | decoded (h : s.worker.phase = .decode) (f : Frame)
      (hf : decodeStatusFrame s.params s.worker.rxb = .ok f)
      (e : t = goTo .classify (setWorker { s.worker with frm := f } s))
  | noOpportunity (h : s.worker.phase = .classify)
      (ho : isOpportunity s.params s.worker.frm = false) (e : t = toStatusOrIdle s)
  | emptyQueue (h : s.worker.phase = .classify) (ho : isOpportunity s.params s.worker.frm = true)
      (hq : (settleCQ s).cq = []) (e : t = toStatusOrIdle (settleCQ s))
  | opportunity (h : s.worker.phase = .classify) (ho : isOpportunity s.params s.worker.frm = true)
      (hq : (settleCQ s).cq ≠ [])
      (e : t = goTo .oppPop (setWorker { s.worker with t0 := s.world.clock } (settleCQ s)))
  | pop (h : s.worker.phase = .oppPop) (d : DeviceState) (ds : List DeviceState)
      (hq : (settleCQ s).cq = d :: ds)
      (e : t = goTo .oppEncode
        (setWorker { s.worker with req := d } (setQueue ds (blockFreely (settleCQ s)))))
  | encode (h : s.worker.phase = .oppEncode)
      (e : t = goTo .oppCheck
        (setWorker { s.worker with txb := encodeCommandFrame s.params s.worker.req } s))
  | gateOpen (h : s.worker.phase = .oppCheck) (hg : s.world.clock - s.worker.t0 ≤ tBudget)
      (e : t = goTo .oppSettle (measured s))
  | gateClosed (h : s.worker.phase = .oppCheck) (hg : tBudget < s.world.clock - s.worker.t0)
      (e : t = toStatusOrIdle (discardRequest
        (emit [.sendWindowMissed s.worker.req (s.world.clock - s.worker.t0)] (measured s))))
  | settle (h : s.worker.phase = .oppSettle) (e : t = goTo .oppWrite (delay s.params.tSettle s))
  | write (h : s.worker.phase = .oppWrite) (e : t = goTo .oppWait (writeBytes s.worker.txb s))
  | wait (h : s.worker.phase = .oppWait)
      (e : t = toStatusOrIdle (waitSendComplete s.params.tTxWait s))
  | statusApply (h : s.worker.phase = .statusApply) (e : t = endTick (statusUpdate s.worker.frm s))

theorem edge_of_workerEdge {s t : State} (hgo : ¬(s.worker.phase = .idle ∧ s.shutdownReq = true))
    (h : workerEdge s = .next t) : Edge s t := by
  cases hph : s.worker.phase with
  | idle =>
    have hno : s.shutdownReq = false := Bool.eq_false_iff.mpr fun hreq => hgo ⟨hph, hreq⟩
    rw [workerEdge_idle hph, hno] at h
    cases h
    exact .startTick hph hno rfl
  | poll =>
    rw [workerEdge_poll hph, readByte_eq] at h
    split at h <;> cases h
    · exact .start hph ‹_› rfl
    · exact .noStart hph rfl
  | body =>
    rw [workerEdge_body hph] at h
    have hle := readBytes_length_le bodyLen s.params.tBody s
    split at h <;> cases h
    · exact .truncated hph _ rfl
    · exact .body hph (Nat.le_antisymm hle (Nat.not_lt.mp ‹_›)) rfl
  | decode =>
    rcases workerEdge_decode hph with ⟨-, e⟩ | ⟨-, e⟩ | ⟨f, hf, e⟩ <;> cases e.symm.trans h
    · exact .rejected hph _ rfl
    · exact .rejected hph _ rfl
    · exact .decoded hph f hf rfl
  | classify =>
    rcases workerEdge_classify hph with ⟨ho, e⟩ | ⟨ho, hq, e⟩ | ⟨ho, hq, e⟩ <;> cases e.symm.trans h
    · exact .noOpportunity hph ho rfl
    · exact .emptyQueue hph ho hq rfl
    · exact .opportunity hph ho hq rfl
  | oppPop =>
    rcases workerEdge_oppPop hph with ⟨-, e⟩ | ⟨d, ds, hq, e⟩ <;> cases e.symm.trans h
    exact .pop hph d ds hq rfl
  | oppEncode =>
    cases (workerEdge_oppEncode hph).symm.trans h
    exact .encode hph rfl
  | oppCheck =>
    rw [workerEdge_oppCheck hph] at h
    split at h <;> cases h
    · exact .gateOpen hph ‹_› rfl
    · exact .gateClosed hph (Nat.lt_of_not_le ‹_›) rfl
  | oppSettle =>
    cases (workerEdge_oppSettle hph).symm.trans h
    exact .settle hph rfl
  | oppWrite =>
    cases (workerEdge_oppWrite hph).symm.trans h
    exact .write hph rfl
  | oppWait =>
    cases (workerEdge_oppWait hph).symm.trans h
    exact .wait hph rfl
  | statusApply =>
    cases (workerEdge_statusApply hph).symm.trans h
    exact .statusApply hph rfl

/-! ### What an edge leaves alone -/

@[simp] theorem polled_frame (s : State) :
    (polled s).params = s.params ∧ (polled s).lifecycle = s.lifecycle ∧
      (polled s).shutdownReq = s.shutdownReq ∧ (polled s).actor = s.actor ∧
      (polled s).ds = s.ds ∧ (polled s).gDS = s.gDS ∧ (polled s).cq = s.cq ∧
      (polled s).gCQ = s.gCQ ∧ (polled s).trace = s.trace ∧
      (polled s).transport.config = s.transport.config ∧
      (polled s).world.sched = s.world.sched := by
  simp [polled]

@[simp] theorem bodyRead_frame (s : State) :
    (bodyRead s).params = s.params ∧ (bodyRead s).lifecycle = s.lifecycle ∧
      (bodyRead s).shutdownReq = s.shutdownReq ∧ (bodyRead s).actor = s.actor ∧
      (bodyRead s).ds = s.ds ∧ (bodyRead s).gDS = s.gDS ∧ (bodyRead s).cq = s.cq ∧
      (bodyRead s).gCQ = s.gCQ ∧ (bodyRead s).trace = s.trace ∧
      (bodyRead s).transport.config = s.transport.config ∧
      (bodyRead s).world.sched = s.world.sched := by
  simp [bodyRead]

theorem clock_le_polled (s : State) : s.world.clock ≤ (polled s).world.clock :=
  (blockUpTo_clock_bounds s.params.tPoll (setRx s.transport.rx.tail s)).1

theorem clock_le_bodyRead (s : State) : s.world.clock ≤ (bodyRead s).world.clock :=
  (readBytes_clock_bounds bodyLen s.params.tBody s).1

/-- Nothing but the worker's registers, the queue, the receive buffer and the environment's part differs. -/
def Quiet (s t : State) : Prop :=
  SameControl s t ∧ t.transport.config = s.transport.config ∧ SameStore s t ∧ t.gCQ = s.gCQ ∧
    SameOutput s t ∧ t.world.sched = s.world.sched

/-- Nothing of the store changes, guards are freed at most, and the traces grow. -/
theorem WorkerMove.of_sameStore {s t : State} (hc : SameControl s t)
    (hcfg : t.transport.config = s.transport.config) (ht : TimePassed s t) (hs : SameStore s t)
    (hg : t.gCQ = s.gCQ ∨ t.gCQ = none) (hw : ∃ w, t.trace.written = s.trace.written ++ w)
    (he : ∃ e, t.trace.events = s.trace.events ++ e)
    (hr : ∃ r, t.trace.replies = s.trace.replies ++ r) : WorkerMove s t := by
  obtain ⟨r, hr⟩ := hr
  exact ⟨hc, hcfg, ht, .inl hs, hw, he, ⟨r, hr, fun _ hn => .inl ⟨hs.2.trans hn, hs.1⟩⟩, .inl hs.2, hg⟩

theorem WorkerMove.of_quiet {s t : State} (h : Quiet s t) (hclock : s.world.clock ≤ t.world.clock) :
    WorkerMove s t := by
  obtain ⟨hc, hcfg, hs, hg, ho, hsched⟩ := h
  have ho : t.trace = s.trace := ho
  exact .of_sameStore hc hcfg ⟨hsched, hclock⟩ hs (.inl hg) ⟨[], by simp [ho]⟩ ⟨[], by simp [ho]⟩
    ⟨[], by simp [ho]⟩

/-- After waiting for the queue's guard, nothing but registers, the queue and the environment changes. -/
theorem WorkerMove.of_quiet_settleCQ {s t : State} (h : Quiet (settleCQ s) t)
    (hclock : s.world.clock ≤ t.world.clock) : WorkerMove s t := by
  simp only [Quiet, SameControl, SameStore, SameOutput, settleCQ_params, settleCQ_lifecycle,
    settleCQ_shutdownReq, settleCQ_actor, settleCQ_transport, settleCQ_ds, settleCQ_gDS,
    settleCQ_gCQ, settleCQ_world] at h
  obtain ⟨hc, hcfg, hs, hg, ho, hsched⟩ := h
  exact .of_sameStore hc hcfg ⟨hsched, hclock⟩ hs (.inr hg) ⟨[], by simp [ho]⟩ ⟨[], by simp [ho]⟩
    ⟨_, by rw [ho, settleCQ_replies_waiting]⟩

/-- The update of step 5, under its test or in its own phase. -/
theorem WorkerMove.of_statusUpdate (f : Frame) (s : State) :
    WorkerMove s (endTick (statusUpdate f s)) := by
  rw [statusUpdate_eq]
  exact ⟨by simp [SameControl], by simp, by simp [TimePassed], .inr ⟨f, rfl⟩, ⟨[], by simp⟩,
    ⟨_, by simp; rfl⟩, ⟨_, by simp [settleDS_replies_waiting]; rfl,
      fun n hn => .inr (by simp [waitingCopyReply, hn])⟩, .inr (by simp), .inl (by simp)⟩

theorem workerMove_of_edge {s t : State} (h : Edge s t) : WorkerMove s t := by
  cases h with
  | startTick _ _ e => exact e ▸ .of_quiet (by simp [Quiet, SameControl, SameStore, SameOutput]) (by simp)
  | noStart _ e =>
    exact e ▸ .of_quiet (by simp [Quiet, SameControl, SameStore, SameOutput]) (clock_le_polled s)
  | start _ _ e =>
    exact e ▸ .of_quiet (by simp [Quiet, SameControl, SameStore, SameOutput]) (clock_le_polled s)
  | truncated _ n e =>
    have hclock := clock_le_bodyRead s
    exact e ▸ .of_sameStore (by simp [SameControl]) (by simp) (by simpa [TimePassed] using hclock)
      (by simp [SameStore]) (by simp) (by simp) (by simp) (by simp)
  | body _ _ e =>
    exact e ▸ .of_quiet (by simp [Quiet, SameControl, SameStore, SameOutput]) (clock_le_bodyRead s)
  | rejected _ ev e =>
    exact e ▸ .of_sameStore (by simp [SameControl]) (by simp) (by simp [TimePassed])
      (by simp [SameStore]) (by simp) (by simp) (by simp) (by simp)
  | decoded _ f _ e => exact e ▸ .of_quiet (by simp [Quiet, SameControl, SameStore, SameOutput]) (by simp)
  | noOpportunity _ _ e =>
    exact e ▸ .of_quiet (by simp [Quiet, SameControl, SameStore, SameOutput]) (by simp)
  | emptyQueue _ _ _ e =>
    exact e ▸ .of_quiet_settleCQ (by simp [Quiet, SameControl, SameStore, SameOutput]) (by simp)
  | opportunity _ _ _ e =>
    exact e ▸ .of_quiet_settleCQ (by simp [Quiet, SameControl, SameStore, SameOutput]) (by simp)
  | pop _ d ds _ e =>
    exact e ▸ .of_quiet_settleCQ (by simp [Quiet, SameControl, SameStore, SameOutput])
      (by simp [blockFreely_clock])
  | encode _ e => exact e ▸ .of_quiet (by simp [Quiet, SameControl, SameStore, SameOutput]) (by simp)
  | gateOpen _ _ e =>
    exact e ▸ .of_quiet (by simp [Quiet, SameControl, SameStore, SameOutput, measured]) (by simp [measured])
  | gateClosed _ _ e =>
    exact e ▸ .of_sameStore (by simp [SameControl, measured]) (by simp [measured])
      (by simp [TimePassed, measured]) (by simp [SameStore, measured]) (by simp [measured])
      (by simp [measured]) (by simp [measured]) (by simp [measured])
  | settle _ e => exact e ▸ .of_quiet (by simp [Quiet, SameControl, SameStore, SameOutput]) (by simp)
  | write _ e =>
    exact e ▸ .of_sameStore (by simp [SameControl]) (by simp) (by simp [TimePassed])
      (by simp [SameStore]) (by simp) (by simp) (by simp) (by simp)
  | wait _ e =>
    exact e ▸ .of_quiet (by simp [Quiet, SameControl, SameStore, SameOutput])
      (by simpa using (waitSendComplete_clock_bounds s.params.tTxWait s).1)
  | statusApply _ e => exact e ▸ .of_statusUpdate s.worker.frm s

/-- An edge writes only in `OppWrite`, and then what stands in `TXB` (R114). -/
theorem Edge.written {s t : State} (h : Edge s t) :
    t.trace.written = s.trace.written ∨
      (s.worker.phase = .oppWrite ∧ t.trace.written = s.trace.written ++ [s.worker.txb]) := by
  cases h with
  | write h e => exact .inr ⟨h, by rw [e]; rfl⟩
  | statusApply _ e => exact .inl (by simp [e, statusUpdate_eq])
  | gateOpen _ _ e => exact .inl (by simp [e, measured])
  | gateClosed _ _ e => exact .inl (by simp [e, measured])
  | _ => exact .inl (by simp [*])

end Sys2Proof.Machine
end

section
/-! PROOFS. Whole ticks, the kinds of step, and the statements on every step of a running block: who may
change the store, the queue, the parameters and the traces (spec/10_state.md sections 1 to 3,
spec/20_memory.md section 5, spec/60_exceptions.md section 9). -/
namespace Sys2Proof.Machine

/-! ### A whole tick is a move of the worker -/

theorem classified_events_grow (f : Frame) (s : State) :
    ∃ es, (classified f s).trace.events = s.trace.events ++ es := by
  obtain ⟨es, he⟩ := opportunityStep_events f s
  rw [classified_events, he]
  exact ⟨_, List.append_assoc _ _ _⟩

theorem workerMove_classified (f : Frame) (s : State) : WorkerMove s (classified f s) := by
  obtain ⟨-, hcontrol, htransport, htime, hqueue⟩ := classified_frame f s
  have hgDS := classified_gDS f s
  have hgCQ := classified_gCQ f s
  have hds := classified_ds f s
  have hreplies := classified_replies f s
  rw [List.append_assoc] at hreplies
  refine ⟨hcontrol, by rw [htransport], htime, ?_, ?_, classified_events_grow f s, ⟨_, hreplies, ?_⟩,
    ?_, ?_⟩
  · by_cases hst : isStatus s.params f = true
    · exact .inr ⟨f, by rw [hds, if_pos hst]⟩
    · exact .inl ⟨by rw [hds, if_neg hst], by rw [hgDS, if_neg hst]⟩
  · rcases hqueue with ⟨-, hw⟩ | ⟨-, req, -, -, hw | hw⟩
    · exact ⟨[], by simp [hw]⟩
    · exact ⟨[], by simp [hw]⟩
    · exact ⟨_, hw⟩
  · intro n hn
    by_cases hst : isStatus s.params f = true
    · exact .inr (by simp [hst, waitingCopyReply, hn])
    · exact .inl ⟨by rw [hgDS, if_neg hst, hn], by rw [hds, if_neg hst]⟩
  · rw [hgDS]
    split <;> simp
  · rw [hgCQ]
    split <;> simp

/-- Taking bytes from the transport first makes no difference to what a move leaves alone. -/
theorem WorkerMove.of_afterRead {rest : List Byte} {w : World} {s t : State}
    (hsched : w.sched = s.world.sched) (hclock : s.world.clock ≤ w.clock)
    (h : WorkerMove (afterRead rest w s) t) : WorkerMove s t :=
  ⟨h.control, h.config, ⟨h.time.1.trans hsched, hclock.trans h.time.2⟩, h.store, h.written, h.events,
    h.replies, h.freed⟩

theorem workerMove_tickThrough (s : State) : WorkerMove s (tickThrough s) := by
  obtain ⟨rest, w, -, hsched, hclock, ⟨es, e⟩ | ⟨raw, f, -, -, -, e⟩⟩ := tickThrough_next s <;> rw [e]
  · exact .of_sameStore (by simp [SameControl]) (by simp) ⟨by simpa using hsched, by simpa using hclock⟩
      (by simp [SameStore]) (by simp) (by simp) (by simp) (by simp)
  · exact .of_afterRead hsched hclock (workerMove_classified f _)

@[simp] theorem tickThrough_phase (s : State) : (tickThrough s).worker.phase = .idle := by
  obtain ⟨rest, w, -, -, -, ⟨es, e⟩ | ⟨raw, f, -, -, -, e⟩⟩ := tickThrough_next s <;> rw [e] <;> rfl

/-! ### The five kinds of step -/

/-- The state in which the worker makes its move: the schedule and the draws have gone on. -/
def turnOf (w : World) (s : State) : State := actAs .worker { s with world := w }

@[simp] theorem turnOf_frame (w : World) (s : State) :
    (turnOf w s).params = s.params ∧ (turnOf w s).lifecycle = s.lifecycle ∧
      (turnOf w s).shutdownReq = s.shutdownReq ∧ (turnOf w s).actor = .worker ∧
      (turnOf w s).ds = s.ds ∧ (turnOf w s).gDS = s.gDS ∧ (turnOf w s).cq = s.cq ∧
      (turnOf w s).gCQ = s.gCQ ∧ (turnOf w s).worker = s.worker ∧ (turnOf w s).trace = s.trace ∧
      (turnOf w s).transport = s.transport ∧ (turnOf w s).world = w :=
  ⟨rfl, rfl, rfl, rfl, rfl, rfl, rfl, rfl, rfl, rfl, rfl, rfl⟩

/-- What a step can be, with the state in which the move is made. -/
inductive StepKind (s t : State) : Prop
  /-- The worker takes an edge of R121. -/
  | edge (w : World) (hclock : w.clock = s.world.clock) (hr : s.lifecycle = .running)
      (h : Edge (turnOf w s) t)
  /-- The worker runs a whole tick (R100). -/
  | tick (w : World) (hclock : w.clock = s.world.clock) (hr : s.lifecycle = .running)
      (hi : s.worker.phase = .idle) (hno : s.shutdownReq = false) (h : t = tickThrough (turnOf w s))
  /-- The worker stops between ticks (R155). -/
  | stop (w : World) (hr : s.lifecycle = .running) (hi : s.worker.phase = .idle)
      (hreq : s.shutdownReq = true) (h : t = Machine.stop (turnOf w s))
  /-- R150. -/
  | start (w : World) (p : Params) (opened : Bool) (rx : List Byte) (hr : s.lifecycle ≠ .running)
      (hf : s.lifecycle ≠ .initFailed) (hv : p.valid = true)
      (h : t = startUp p opened rx { s with world := w })
  /-- Everybody else's moves. -/
  | side (h : SideMove s t)

/-- A move is one of the five kinds of step, in a state whose environment has gone on. -/
theorem stepKind_of_move {m : Move} {w : World} {s t : State} (hclock : w.clock = s.world.clock)
    (h : performMove m { s with world := w } = .next t) : StepKind s t := by
  have hw : SideMove s { s with world := w } := .of_surroundings (rx := s.transport.rx) hclock.ge rfl
  rcases performMove_next h with ⟨-, hr, h⟩ | ⟨-, hr, hi, hreq, h⟩ | ⟨-, hr, hi, hno, h⟩ | ⟨n, c, -, h⟩ |
    ⟨n, -, hr, h⟩ | ⟨n, d, -, hr, h⟩ | ⟨-, -, h⟩ | ⟨-, -, h⟩ | ⟨rx, h⟩ | ⟨ms, -, h⟩ |
    ⟨p, opened, rx, -, hr, hv, hf, h⟩ | ⟨-, -, h⟩
  · by_cases hgo : s.worker.phase = .idle ∧ s.shutdownReq = true
    · obtain ⟨hi, hreq⟩ := hgo
      have hedge := workerEdge_idle (s := turnOf w s) hi
      rw [show (turnOf w s).shutdownReq = true from hreq, if_pos rfl] at hedge
      exact .stop w hr hi hreq (Host.Outcome.next.inj (h.symm.trans hedge))
    · exact .edge w hclock hr (edge_of_workerEdge hgo h)
  · exact .stop w hr hi hreq h
  · exact .tick w hclock hr hi hno h
  · exact .side (hw.trans (.of_call h))
  · exact .side (hw.trans (h ▸ .of_enterStatus n hr))
  · exact .side (hw.trans (h ▸ .of_enterRequest n d hr))
  · exact .side (hw.trans (h ▸ .of_settleDS _))
  · exact .side (hw.trans (h ▸ .of_settleCQ _))
  · exact .side (.of_surroundings hclock.ge h)
  · exact .side (.of_surroundings (rx := s.transport.rx) (by rw [pass_clock, hclock]; omega) h)
  · exact .start w p opened rx hr hf hv h
  · exact .side (.of_surroundings (rx := s.transport.rx) hclock.ge h)

theorem stepKind_of_step {s t : State} (h : step s = .next t) : StepKind s t := by
  have hmove : performMove (nextMove s).1 (nextMove s).2 = .next t := h
  rw [nextMove_snd] at hmove
  exact stepKind_of_move (nextMove_clock s) hmove

/-- From a running state a step is a move of the worker, the shutdown, or a side move. -/
theorem step_running {s t : State} (hr : s.lifecycle = .running) (h : step s = .next t) :
    (∃ w, w.clock = s.world.clock ∧ WorkerMove (turnOf w s) t) ∨
      (∃ w, t = stop (turnOf w s)) ∨ SideMove s t := by
  cases stepKind_of_step h with
  | edge w hclock _ h => exact .inl ⟨w, hclock, workerMove_of_edge h⟩
  | tick w hclock _ _ _ h => exact .inl ⟨w, hclock, h ▸ workerMove_tickThrough _⟩
  | stop w _ _ _ h => exact .inr (.inl ⟨w, h⟩)
  | start _ _ _ _ hn => exact absurd hr hn
  | side h => exact .inr (.inr h)

/-- Settles O49: a move beside the worker leaves the store alone. -/
theorem onlyTheWorkerWritesTheStore : Obligations.OnlyTheWorkerWritesTheStore := by
  unfold Obligations.OnlyTheWorkerWritesTheStore
  intro s t hr h hds
  rcases step_running hr h with ⟨w, -, hm⟩ | ⟨w, rfl⟩ | hm
  · exact hm.control.actor
  · obtain ⟨-, -, -, -, -, -, -, -, hactor, -⟩ := stop_frame (turnOf w s)
    exact hactor
  · exact absurd hm.ds hds

/-- Settles O50: what is not the worker's is a side move, which adds at the tail. -/
theorem onlyTheWorkerRemovesEntries : Obligations.OnlyTheWorkerRemovesEntries := by
  unfold Obligations.OnlyTheWorkerRemovesEntries
  intro s t hr h hactor
  rcases step_running hr h with ⟨w, -, hm⟩ | ⟨w, rfl⟩ | hm
  · exact absurd hm.control.actor hactor
  · obtain ⟨-, -, -, -, -, -, -, -, ha, -⟩ := stop_frame (turnOf w s)
    exact absurd ha hactor
  · exact hm.queue

/-- Settles O51: the store changes by an interpretation only, which keeps known fields known. -/
theorem knownFieldsStayKnown : Obligations.KnownFieldsStayKnown := by
  unfold Obligations.KnownFieldsStayKnown
  intro s t hr h hrt
  have hsame : t.ds = s.ds → (s.ds.power ≠ .unknown → t.ds.power ≠ .unknown) ∧
      (s.ds.mode ≠ .unknown → t.ds.mode ≠ .unknown) ∧
      (s.ds.fanSpeed ≠ .unknown → t.ds.fanSpeed ≠ .unknown) := fun hds => hds ▸ ⟨id, id, id⟩
  rcases step_running hr h with ⟨w, -, hm⟩ | ⟨w, rfl⟩ | hm
  · rcases hm.store with hs | ⟨f, hf⟩
    · exact hsame hs.1
    · exact hf ▸ interpretStatusFrame_known f s.ds
  · exact nomatch (stop_frame (turnOf w s)).1.symm.trans hrt
  · exact hsame hm.ds

/-- Settles O52: none of the three kinds of step touches the parameters. -/
theorem parametersNeverChange : Obligations.ParametersNeverChange := by
  unfold Obligations.ParametersNeverChange
  intro s t hr h
  rcases step_running hr h with ⟨w, -, hm⟩ | ⟨w, rfl⟩ | hm
  · exact hm.control.1
  · obtain ⟨-, -, -, -, -, -, -, hparams, -⟩ := stop_frame (turnOf w s)
    exact hparams
  · exact hm.params

/-- What was added to a trace is what is left of it after the old length. -/
theorem mem_drop_of_eq_append {α : Type} {old new added : List α} {x : α} (h : new = old ++ added)
    (hx : x ∈ added) : x ∈ new.drop old.length := by
  rw [h, List.drop_left]
  exact hx

/-- Settles O53: a move that ends the caller's copy delivers the store as it was before the move. -/
theorem noTornReads : Obligations.NoTornReads := by
  unfold Obligations.NoTornReads
  intro s t n hr hn h
  rcases step_running hr h with ⟨w, -, hm⟩ | ⟨w, rfl⟩ | hm
  · obtain ⟨r, hadded, hcopy⟩ := hm.replies
    exact (hcopy n hn).imp_right (mem_drop_of_eq_append hadded)
  · obtain ⟨-, -, -, -, -, -, -, -, -, -, -, hreplies⟩ := stop_frame (turnOf w s)
    rw [List.append_assoc] at hreplies
    exact .inr (mem_drop_of_eq_append hreplies (by simp [waitingCopyReply, hn]))
  · obtain ⟨r, hadded, hcopy⟩ := hm.replies
    exact (hcopy n hn).imp (fun hg => ⟨hg, hm.ds⟩) (mem_drop_of_eq_append hadded)

/-- Settles O54, by the kinds of step: a start-up leaves the traces alone. -/
theorem tracesOnlyGrow : Obligations.TracesOnlyGrow := by
  unfold Obligations.TracesOnlyGrow
  intro s t h
  have hmove : ∀ w, WorkerMove (turnOf w s) t → (∃ w, t.trace.written = s.trace.written ++ w) ∧
      (∃ e, t.trace.events = s.trace.events ++ e) ∧ (∃ r, t.trace.replies = s.trace.replies ++ r) :=
    fun w hm => ⟨hm.written, hm.events, hm.replies.imp fun _ hr => hr.1⟩
  cases stepKind_of_step h with
  | edge w _ _ h => exact hmove w (workerMove_of_edge h)
  | tick w _ _ _ _ h => exact hmove w (h ▸ workerMove_tickThrough _)
  | stop w _ _ _ h =>
    obtain ⟨-, -, -, -, -, -, -, -, -, hwritten, hevents, hreplies⟩ := stop_frame (turnOf w s)
    rw [List.append_assoc] at hreplies
    exact h ▸ ⟨⟨[], by simp [hwritten]⟩, ⟨[], by simp [hevents]⟩, ⟨_, hreplies⟩⟩
  | start w p opened rx _ _ _ h =>
    exact h ▸ ⟨⟨[], by simp [startUp]⟩, ⟨[], by simp [startUp]⟩, ⟨[], by simp [startUp]⟩⟩
  | side h =>
    exact ⟨⟨[], by simp [h.written]⟩, ⟨[], by simp [h.events]⟩, h.replies.imp fun _ hr => hr.1⟩

/-! ### The phase table -/

/-- The status test leads to `StatusApply` or `Idle`. -/
theorem toStatusOrIdle_mem_phaseEdges {ph : Phase} (u : State)
    (hs : (ph, Phase.statusApply) ∈ phaseEdges) (hi : (ph, Phase.idle) ∈ phaseEdges) :
    (ph, (toStatusOrIdle u).worker.phase) ∈ phaseEdges := by
  rcases toStatusOrIdle_phase u with e | e <;> rw [e]
  · exact hs
  · exact hi

theorem Edge.mem_phaseEdges {s t : State} (h : Edge s t) :
    (s.worker.phase, t.worker.phase) ∈ phaseEdges := by
  cases h with
  | startTick h _ e => rw [h, e, goTo_phase]; decide
  | noStart h e => rw [h, e, endTick_phase]; decide
  | start h _ e => rw [h, e, goTo_phase]; decide
  | truncated h _ e => rw [h, e, raise_phase]; decide
  | body h _ e => rw [h, e, goTo_phase]; decide
  | rejected h _ e => rw [h, e, raise_phase]; decide
  | decoded h _ _ e => rw [h, e, goTo_phase]; decide
  | noOpportunity h _ e => rw [h, e]; exact toStatusOrIdle_mem_phaseEdges _ (by decide) (by decide)
  | emptyQueue h _ _ e => rw [h, e]; exact toStatusOrIdle_mem_phaseEdges _ (by decide) (by decide)
  | opportunity h _ _ e => rw [h, e, goTo_phase]; decide
  | pop h _ _ _ e => rw [h, e, goTo_phase]; decide
  | encode h e => rw [h, e, goTo_phase]; decide
  | gateOpen h _ e => rw [h, e, goTo_phase]; decide
  | gateClosed h _ e => rw [h, e]; exact toStatusOrIdle_mem_phaseEdges _ (by decide) (by decide)
  | settle h e => rw [h, e, goTo_phase]; decide
  | write h e => rw [h, e, goTo_phase]; decide
  | wait h e => rw [h, e]; exact toStatusOrIdle_mem_phaseEdges _ (by decide) (by decide)
  | statusApply h e => rw [h, e, endTick_phase]; decide

/-- A scheduled move of the worker in a running block is its edge. -/
theorem step_worker {s : State} {ms : List Move} (hr : s.lifecycle = .running)
    (h : s.world.sched = .worker :: ms) :
    step s = workerEdge (turnOf { s.world with sched := ms } s) := by
  rw [step_of_sched h]
  exact whenRunning_of_running hr _

/-- Settles O43: every edge stands in the table, and the table is read through. -/
theorem workerFollowsThePhaseTable : Obligations.WorkerFollowsThePhaseTable := by
  unfold Obligations.WorkerFollowsThePhaseTable
  refine ⟨fun s t ms hr hno hsched h => ?_, by decide⟩
  rw [step_worker hr hsched] at h
  have hedge : Edge (turnOf { s.world with sched := ms } s) t :=
    edge_of_workerEdge (fun hgo => absurd (hno.symm.trans hgo.2) (by decide)) h
  exact hedge.mem_phaseEdges

/-! ### Whole ticks -/

theorem tickThrough_of_start {s : State} (h : s.transport.rx.head? = some s.params.startMark) :
    tickThrough s = withBody (readBytes bodyLen s.params.tBody (readByte s.params.tPoll s).2).1
      (readBytes bodyLen s.params.tBody (readByte s.params.tPoll s).2).2 := by
  simp [tickThrough, readByte_eq, h]

theorem tickThrough_of_no_start {s : State} (h : s.transport.rx.head? ≠ some s.params.startMark) :
    tickThrough s = endTick (readByte s.params.tPoll s).2 := by
  cases hrx : s.transport.rx <;> simp_all [tickThrough, readByte_eq]

theorem exec_tick {s : State} (hr : s.lifecycle = .running) (hi : s.worker.phase = .idle) :
    exec .tick s = .next (tickThrough s) := whenBetweenTicks_of_idle hr hi _

/-- A whole tick that is scheduled next, with no shutdown requested. -/
theorem step_tick {s : State} {ms : List Move} (hr : s.lifecycle = .running) (hi : s.worker.phase = .idle)
    (hno : s.shutdownReq = false) (h : s.world.sched = .tick :: ms) :
    step s = .next (tickThrough (turnOf { s.world with sched := ms } s)) := by
  rw [step_of_sched h, performMove, if_neg (by simp [hno])]
  exact exec_tick hr hi

/-- Settles O37: a tick raises at most a condition, which touches neither queue nor bus, or classifies a
frame, for which `classified_frame` says what leaves the queue and what is written. -/
theorem everyTickEnds : Obligations.EveryTickEnds := by
  unfold Obligations.EveryTickEnds
  intro s hr hi
  have hm := workerMove_tickThrough s
  obtain ⟨rest, w, ⟨k, hk, hrest⟩, -, -, hend⟩ := tickThrough_next s
  refine ⟨tickThrough s, k, exec_tick hr hi, tickThrough_phase s, hm.control, hk, ?_, hm.config, hm.time, ?_⟩
  · rcases hend with ⟨es, e⟩ | ⟨raw, f, -, -, -, e⟩ <;> rw [e, ← hrest]
    · rfl
    · obtain ⟨-, -, htransport, -⟩ := classified_frame f (afterRead rest w s)
      rw [htransport]
      rfl
  · rcases hend with ⟨es, e⟩ | ⟨raw, f, -, -, -, e⟩ <;> rw [e]
    · exact .inl ⟨⟨rfl, rfl⟩, rfl⟩
    · obtain ⟨-, -, -, -, hqueue⟩ := classified_frame f (afterRead rest w s)
      rcases hqueue with hsame | ⟨hfree, req, hq, -, hw⟩
      · exact .inl hsame
      · exact .inr ⟨hfree, req, hq, hw⟩

end Sys2Proof.Machine
end

section
/-! PROOFS. The invariant (spec/10_state.md sections 2 to 7, spec/42_bus_worker.md section 8): what it says
of each phase, that every edge and so every step keeps it, and what follows for the bus. -/
namespace Sys2Proof.Machine

/-! ### The invariant of a running block, phase by phase -/

/-- What the invariant says of the phase a running block is in. -/
def PhaseFacts (s : State) : Prop :=
  match s.worker.phase with
  | .idle | .poll | .body | .classify => True
  | .decode => s.worker.rxb.length = bodyLen
  | .oppPop => isOpportunity s.params s.worker.frm = true ∧ s.cq ≠ [] ∧ s.worker.t0 ≤ s.world.clock
  | .oppEncode => isOpportunity s.params s.worker.frm = true ∧ s.worker.t0 ≤ s.world.clock
  | .oppCheck => isOpportunity s.params s.worker.frm = true ∧ s.worker.t0 ≤ s.world.clock ∧
      s.worker.txb = encodeCommandFrame s.params s.worker.req
  | .oppSettle | .oppWrite | .oppWait => isOpportunity s.params s.worker.frm = true ∧
      s.worker.txb = encodeCommandFrame s.params s.worker.req ∧ s.worker.el ≤ tBudget
  | .statusApply => isStatus s.params s.worker.frm = true

theorem Inv.phaseFacts {s : State} (h : Inv s) : PhaseFacts s := by
  have hopp := h.onOpportunity
  have henc := h.encoded
  have hgate := h.gated
  have hstamp := h.stamped
  cases hph : s.worker.phase <;>
    simp only [PhaseFacts, hph, Phase.inStep4, Phase.rank] at hopp henc hgate hstamp ⊢
  case decode => exact h.wholeBody hph
  case oppPop => exact ⟨hopp (by decide), h.popReady hph, hstamp (by decide)⟩
  case oppEncode => exact ⟨hopp (by decide), hstamp (by decide)⟩
  case oppCheck => exact ⟨hopp (by decide), hstamp (by decide), henc (by decide)⟩
  case oppSettle => exact ⟨hopp (by decide), henc (by decide), hgate (by decide)⟩
  case oppWrite => exact ⟨hopp (by decide), henc (by decide), hgate (by decide)⟩
  case oppWait => exact ⟨hopp (by decide), henc (by decide), hgate (by decide)⟩
  case statusApply => exact h.onStatus hph

/-- A running block meets the invariant when its parameters, its transport, its guards and its store do
and the facts of its phase hold. -/
theorem inv_of_phaseFacts {s : State} (hr : s.lifecycle = .running) (hv : s.params.valid = true)
    (hc : s.transport.config = some (uartConfig s.params)) (hg : OneGuard s) (hs : StoreDecoded s.ds)
    (hf : PhaseFacts s) : Inv s where
  running _ := ⟨hv, hc⟩
  notRunning hn := absurd hr hn
  oneGuard := hg
  store := hs
  wholeBody hph := by simpa only [PhaseFacts, hph] using hf
  onOpportunity hin := by
    unfold PhaseFacts at hf
    cases hph : s.worker.phase <;> simp_all [Phase.inStep4, Phase.rank]
  popReady hph := by
    simp only [PhaseFacts, hph] at hf
    exact hf.2.1
  stamped hph := by
    unfold PhaseFacts at hf
    rcases hph with hph | hph | hph <;> simp only [hph] at hf
    · exact hf.2.2
    · exact hf.2
    · exact hf.2.1
  encoded hrank := by
    unfold PhaseFacts at hf
    cases hph : s.worker.phase <;> simp_all [Phase.rank]
  gated hrank := by
    unfold PhaseFacts at hf
    cases hph : s.worker.phase <;> simp_all [Phase.rank]
  onStatus hph := by simpa only [PhaseFacts, hph] using hf

/-! ### The worker keeps it -/

theorem phaseFacts_toStatusOrIdle (s : State) : PhaseFacts (toStatusOrIdle s) := by
  rcases toStatusOrIdle_cases s with ⟨hst, e⟩ | ⟨-, e⟩ <;> rw [e]
  · exact hst
  · trivial

/-- Every edge leads to a phase whose facts hold. -/
theorem Edge.phaseFacts {s t : State} (h : Edge s t) (hf : PhaseFacts s) : PhaseFacts t := by
  cases h with
  | startTick _ _ e => exact e ▸ trivial
  | noStart _ e => exact e ▸ trivial
  | start _ _ e => exact e ▸ trivial
  | truncated _ _ e => exact e ▸ trivial
  | body _ hlen e => exact e ▸ hlen
  | rejected _ _ e => exact e ▸ trivial
  | decoded _ _ _ e => exact e ▸ trivial
  | noOpportunity _ _ e => exact e ▸ phaseFacts_toStatusOrIdle _
  | emptyQueue _ _ _ e => exact e ▸ phaseFacts_toStatusOrIdle _
  | opportunity _ ho hq e => exact e ▸ ⟨by simpa using ho, hq, by simp⟩
  | pop h d ds _ e =>
    simp only [PhaseFacts, h] at hf
    obtain ⟨ho, -, hstamp⟩ := hf
    exact e ▸ ⟨by simpa using ho, by simpa [blockFreely_clock] using Nat.le_add_right_of_le hstamp⟩
  | encode h e =>
    simp only [PhaseFacts, h] at hf
    obtain ⟨ho, hstamp⟩ := hf
    exact e ▸ ⟨ho, hstamp, rfl⟩
  | gateOpen h hg e =>
    simp only [PhaseFacts, h] at hf
    obtain ⟨ho, -, htxb⟩ := hf
    exact e ▸ ⟨ho, htxb, hg⟩
  | gateClosed _ _ e => exact e ▸ phaseFacts_toStatusOrIdle _
  | settle h e =>
    simp only [PhaseFacts, h] at hf
    exact e ▸ hf
  | write h e =>
    simp only [PhaseFacts, h] at hf
    exact e ▸ hf
  | wait _ e => exact e ▸ phaseFacts_toStatusOrIdle _
  | statusApply _ e => exact e ▸ trivial

/-- A move of the worker that ends in a phase whose facts hold keeps the invariant. -/
theorem WorkerMove.inv {s t : State} (hm : WorkerMove s t) (hr : s.lifecycle = .running) (h : Inv s)
    (hf : PhaseFacts t) : Inv t := by
  obtain ⟨hparams, hlife, -⟩ := hm.control
  obtain ⟨hv, hc⟩ := h.running hr
  refine inv_of_phaseFacts (hlife.trans hr) (hparams ▸ hv) ?_ ?_ ?_ hf
  · rw [hm.config, hparams, hc]
  · exact OneGuard.of_freed h.oneGuard hm.freed.1 hm.freed.2
  · rcases hm.store with hs | ⟨f, hs⟩
    · exact hs.1 ▸ h.store
    · exact hs ▸ storeDecoded_interpret f h.store

/-! ### The other moves keep it -/

/-- A move beside the worker keeps it: the worker's registers are as they were, the queue has only grown
and the clock has not gone back. -/
theorem SideMove.inv {s t : State} (hm : SideMove s t) (h : Inv s) : Inv t where
  running hr := by
    rw [hm.params, hm.config]
    exact h.running (hm.lifecycle ▸ hr)
  notRunning hr := by
    obtain ⟨hc, hd, hq, hcq, hi, hds⟩ := h.notRunning (hm.lifecycle ▸ hr)
    obtain ⟨hd', hq', hcq'⟩ := hm.outside (hm.lifecycle ▸ hr) hd hq
    exact ⟨hm.config.trans hc, hd', hq', hcq'.trans hcq, hm.worker ▸ hi, hm.ds.trans hds⟩
  oneGuard := hm.oneGuard h.oneGuard
  store := hm.ds ▸ h.store
  wholeBody := hm.worker ▸ h.wholeBody
  onOpportunity := by
    rw [hm.worker, hm.params]
    exact h.onOpportunity
  popReady hph := by
    obtain ⟨q, hq⟩ := hm.queue
    rw [hq]
    exact List.append_ne_nil_of_left_ne_nil (h.popReady (hm.worker ▸ hph)) q
  stamped hph := by
    rw [hm.worker] at hph ⊢
    exact (h.stamped hph).trans hm.clock
  encoded := by
    rw [hm.worker, hm.params]
    exact h.encoded
  gated := hm.worker ▸ h.gated
  onStatus := by
    rw [hm.worker, hm.params]
    exact h.onStatus

/-- A block that does not run and has let go of everything meets the invariant. -/
theorem inv_of_not_running {s : State} (hr : s.lifecycle ≠ .running) (hc : s.transport.config = none)
    (hd : s.gDS = none) (hq : s.gCQ = none) (hcq : s.cq = []) (hi : s.worker.phase = .idle)
    (hds : s.ds = DeviceState.initial) : Inv s := by
  constructor <;> simp_all [Phase.inStep4, Phase.rank, storeDecoded_initial]

theorem inv_stop {s : State} (hi : s.worker.phase = .idle) : Inv (stop s) := by
  obtain ⟨hlife, hc, hcq, hds, hd, hq, hworker, -⟩ := stop_frame s
  exact inv_of_not_running (by simp [hlife]) hc hd hq hcq (hworker ▸ hi) hds

theorem inv_startUp {p : Params} (hv : p.valid = true) (opened : Bool) (rx : List Byte) (s : State) :
    Inv (startUp p opened rx s) := by
  cases opened with
  | false => exact inv_of_not_running (by simp [startUp]) rfl rfl rfl rfl rfl rfl
  | true => exact inv_of_idle rfl rfl hv rfl storeDecoded_initial nofun

/-- Settles O46, by the kinds of step. -/
theorem stepKeepsInvariant : Obligations.StepKeepsInvariant := by
  unfold Obligations.StepKeepsInvariant
  intro s t h hstep
  have hturn : ∀ w : World, w.clock = s.world.clock → Inv (turnOf w s) := fun w hclock =>
    SideMove.inv (.of_surroundings (rx := s.transport.rx) hclock.ge rfl) h
  cases stepKind_of_step hstep with
  | edge w hclock hr hedge =>
    have hs := hturn w hclock
    exact (workerMove_of_edge hedge).inv hr hs (hedge.phaseFacts hs.phaseFacts)
  | tick w hclock hr _ _ e =>
    refine (e ▸ workerMove_tickThrough _ : WorkerMove (turnOf w s) t).inv hr (hturn w hclock) ?_
    simp [PhaseFacts, e]
  | stop w _ hi _ e => exact e ▸ inv_stop hi
  | start w p opened rx _ _ hv e => exact e ▸ inv_startUp hv opened rx _
  | side hm => exact hm.inv h

/-- Settles O47: at reset the block does not run and holds nothing. -/
theorem resetMeetsInvariant : Obligations.ResetMeetsInvariant :=
  inv_of_not_running (by decide) rfl rfl rfl rfl rfl rfl

/-! ### The bus -/

/-- A tick writes only when the bytes it took were a valid frame addressed to the marker, and then the
command frame of the entry it popped (R107 to R114). -/
theorem tickThrough_written {s : State} (h : (tickThrough s).trace.written ≠ s.trace.written) :
    ∃ req, (tickThrough s).trace.written = s.trace.written ++ [encodeCommandFrame s.params req] ∧
      s.cq ++ waitingEntry s = req :: (tickThrough s).cq ∧
      ∃ raw rest f, s.transport.rx = s.params.startMark :: raw ++ rest ∧ raw.length = 13 ∧
        decodeStatusFrame s.params raw = .ok f ∧ f.destination = s.params.addrMarker := by
  obtain ⟨rest, w, -, -, -, ⟨es, e⟩ | ⟨raw, f, hrx, hlen, hf, e⟩⟩ := tickThrough_next s <;> rw [e] at h ⊢
  · exact absurd rfl h
  · obtain ⟨-, -, -, -, ⟨-, hw⟩ | ⟨-, req, hq, ho, hw⟩⟩ := classified_frame f (afterRead rest w s)
    · exact absurd hw h
    · refine ⟨req, hw.resolve_left h, hq, raw, rest, f, hrx, hlen, hf, ?_⟩
      simpa [isOpportunity] using ho

/-- Settles O48, by the kinds of step: only the edge out of `OppWrite` and a whole tick write. -/
theorem busIsWrittenOnlyInAnOpportunity : Obligations.BusIsWrittenOnlyInAnOpportunity := by
  unfold Obligations.BusIsWrittenOnlyInAnOpportunity
  intro s t h hstep hne
  cases stepKind_of_step hstep with
  | edge w hclock hr hedge =>
    have hactor := (workerMove_of_edge hedge).control.actor
    obtain ⟨hph, hw⟩ := hedge.written.resolve_left hne
    have hfacts := h.phaseFacts
    rw [PhaseFacts, show s.worker.phase = .oppWrite from hph] at hfacts
    obtain ⟨ho, htxb, hel⟩ := hfacts
    refine ⟨hactor, hr, s.worker.req, ?_, .inl ⟨hph, rfl, hel, ?_⟩⟩
    · rw [← htxb]
      exact hw
    · simpa [isOpportunity] using ho
  | tick w _ hr hi _ e =>
    subst e
    obtain ⟨req, hw, hq, hframe⟩ := tickThrough_written hne
    exact ⟨(workerMove_tickThrough _).control.actor, hr, req, hw, .inr ⟨hi, hq, hframe⟩⟩
  | stop w _ _ _ e =>
    obtain ⟨-, -, -, -, -, -, -, -, -, hw, -⟩ := stop_frame (turnOf w s)
    exact absurd (e ▸ hw) hne
  | start w p opened rx _ _ _ e => exact absurd (e ▸ rfl) hne
  | side hm => exact absurd hm.written hne

end Sys2Proof.Machine
end

section
/-! PROOFS. The phases of R121 refine the whole tick of R100 (spec/42_bus_worker.md sections 1 and 8). The
worker's registers and the schedule are laid over the rest of the state: no operation of a tick reads them,
so the edges run the whole tick's operations on that rest. -/
namespace Sys2Proof.Machine

/-! ### Registers and schedule laid over the rest of the state -/

/-- The state `s` with the worker's registers `w` and the schedule `ms`. -/
def overlay (w : Worker) (ms : List Move) (s : State) : State :=
  { s with worker := w, world := { s.world with sched := ms } }

@[simp] theorem overlay_frame (w : Worker) (ms : List Move) (s : State) :
    (overlay w ms s).params = s.params ∧ (overlay w ms s).lifecycle = s.lifecycle ∧
      (overlay w ms s).shutdownReq = s.shutdownReq ∧ (overlay w ms s).ds = s.ds ∧
      (overlay w ms s).cq = s.cq ∧ (overlay w ms s).worker = w ∧
      (overlay w ms s).transport = s.transport ∧ (overlay w ms s).world.clock = s.world.clock ∧
      (overlay w ms s).world.sched = ms :=
  ⟨rfl, rfl, rfl, rfl, rfl, rfl, rfl, rfl, rfl⟩

theorem goTo_overlay (ph : Phase) (w : Worker) (ms : List Move) (s : State) :
    goTo ph (overlay w ms s) = overlay { w with phase := ph } ms s := rfl

theorem setRx_overlay (rx : List Byte) (w : Worker) (ms : List Move) (s : State) :
    setRx rx (overlay w ms s) = overlay w ms (setRx rx s) := rfl

theorem nextWait_sched_free (w : World) (ms : List Move) :
    nextWait { w with sched := ms } = ((nextWait w).1, { (nextWait w).2 with sched := ms }) := by
  rcases nextWait_cases w with ⟨d, ds, h, e⟩ | ⟨h, e⟩ <;> rw [e] <;> simp [nextWait, h]

theorem nextBurst_sched_free (w : World) (ms : List Move) :
    nextBurst { w with sched := ms } = ((nextBurst w).1, { (nextBurst w).2 with sched := ms }) := by
  cases h : w.bursts <;> simp [nextBurst, h]

theorem blockUpTo_overlay (t : Nat) (w : Worker) (ms : List Move) (s : State) :
    blockUpTo t (overlay w ms s) = overlay w ms (blockUpTo t s) := by
  simp only [blockUpTo, overlay, nextWait_sched_free]
  rfl

theorem blockFreely_overlay (w : Worker) (ms : List Move) (s : State) :
    blockFreely (overlay w ms s) = overlay w ms (blockFreely s) := by
  simp only [blockFreely, overlay, nextWait_sched_free]
  rfl

theorem waitSendComplete_overlay (t : Nat) (w : Worker) (ms : List Move) (s : State) :
    waitSendComplete t (overlay w ms s) = overlay w ms (waitSendComplete t s) := blockUpTo_overlay t w ms s

theorem readByte_overlay (t : Nat) (w : Worker) (ms : List Move) (s : State) :
    readByte t (overlay w ms s) = ((readByte t s).1, overlay w ms (readByte t s).2) := by
  simp only [readByte_eq, overlay_frame, setRx_overlay, blockUpTo_overlay]

theorem readBytes_overlay (n t : Nat) (w : Worker) (ms : List Move) (s : State) :
    readBytes n t (overlay w ms s) = ((readBytes n t s).1, overlay w ms (readBytes n t s).2) := by
  simp only [readBytes, blockUpTo_overlay]
  simp only [overlay, nextBurst_sched_free]
  rfl

theorem settleDS_overlay (w : Worker) (ms : List Move) (s : State) :
    settleDS (overlay w ms s) = overlay w ms (settleDS s) := by
  cases h : s.gDS
  · rw [settleDS_of_free h]
    exact settleDS_of_free h
  · simp only [settleDS, overlay, h]
    rfl

theorem settleCQ_overlay (w : Worker) (ms : List Move) (s : State) :
    settleCQ (overlay w ms s) = overlay w ms (settleCQ s) := by
  cases h : s.gCQ
  · rw [settleCQ_of_free h]
    exact settleCQ_of_free h
  · simp only [settleCQ, overlay, h]
    rfl

theorem statusUpdate_overlay (f : Frame) (w : Worker) (ms : List Move) (s : State) :
    statusUpdate f (overlay w ms s) = overlay w ms (statusUpdate f s) := by
  simp only [statusUpdate_eq, settleDS_overlay]
  rfl

/-- The end of a tick forgets the registers. -/
theorem endTick_overlay (w : Worker) (s : State) : endTick (overlay w s.world.sched s) = endTick s := rfl

/-! ### Runs of scheduled worker moves -/

/-- From the registers `w` over `s`, in which the worker is the one who moves, at least one and at most `n`
scheduled moves of the worker come to `t`. -/
def TicksWithin (n : Nat) (w : Worker) (s t : State) : Prop :=
  ∃ k, 1 ≤ k ∧ k ≤ n ∧ core.run k (overlay w (List.replicate k .worker ++ s.world.sched) s) = .next t

theorem step_overlay {s : State} (hr : s.lifecycle = .running) (w : Worker) (ms : List Move) :
    step (overlay w (.worker :: ms) s) = workerEdge (overlay w ms (actAs .worker s)) := step_worker hr rfl

/-- In the middle of a tick `s` runs and the worker is the one who moves. -/
structure Ticking (s : State) : Prop where
  running : s.lifecycle = .running
  actor : s.actor = .worker

theorem Ticking.actAs_eq {s : State} (h : Ticking s) : actAs .worker s = s := by
  rw [← h.actor]
  rfl

/-- One more edge in front of a run. -/
theorem TicksWithin.edge {n : Nat} {w w' : Worker} {s s' t : State} (hs : Ticking s)
    (he : ∀ ms, workerEdge (overlay w ms s) = .next (overlay w' ms s'))
    (hsched : s'.world.sched = s.world.sched) (h : TicksWithin n w' s' t) :
    TicksWithin (n + 1) w s t := by
  obtain ⟨k, hk1, hkn, hrun⟩ := h
  refine ⟨k + 1, by omega, by omega, ?_⟩
  have hstep : step (overlay w (.worker :: (List.replicate k .worker ++ s.world.sched)) s) =
      .next (overlay w' (List.replicate k .worker ++ s'.world.sched) s') := by
    rw [step_overlay hs.running, hs.actAs_eq, he, hsched]
  exact (run_of_step hstep k).trans hrun

/-- The edge that ends the tick. -/
theorem TicksWithin.last {n : Nat} {w w' : Worker} {s s' : State} (hs : Ticking s)
    (he : ∀ ms, workerEdge (overlay w ms s) = .next (endTick (overlay w' ms s')))
    (hsched : s'.world.sched = s.world.sched) :
    TicksWithin (n + 1) w s (endTick s') := by
  refine ⟨1, by omega, by omega, ?_⟩
  have hstep : step (overlay w (.worker :: s.world.sched) s) = .next (endTick s') := by
    rw [step_overlay hs.running, hs.actAs_eq, he, ← hsched, endTick_overlay]
  exact run_of_step hstep 0

/-! ### The edges over the rest of the state -/

section Edges
variable {w : Worker} {s : State}

theorem edge_idle (h : w.phase = .idle) (hno : s.shutdownReq = false) (ms : List Move) :
    workerEdge (overlay w ms s) = .next (overlay { w with phase := .poll } ms s) := by
  rw [workerEdge_idle h]
  exact if_neg (by simp [hno])

theorem edge_poll_start (h : w.phase = .poll) (hb : s.transport.rx.head? = some s.params.startMark)
    (ms : List Move) :
    workerEdge (overlay w ms s) = .next (overlay { w with phase := .body, sb := s.transport.rx.head? } ms
      (readByte s.params.tPoll s).2) := by
  have hb' : (readByte s.params.tPoll s).1 = some s.params.startMark := by rw [readByte_eq, hb]
  rw [workerEdge_poll h]
  simp only [overlay_frame, readByte_overlay, hb', if_true, hb]
  rfl

theorem edge_poll_end (h : w.phase = .poll) (hb : s.transport.rx.head? ≠ some s.params.startMark)
    (ms : List Move) :
    workerEdge (overlay w ms s) = .next (endTick (overlay { w with sb := s.transport.rx.head? } ms
      (readByte s.params.tPoll s).2)) := by
  have hb' : (readByte s.params.tPoll s).1 = s.transport.rx.head? := by rw [readByte_eq]
  rw [workerEdge_poll h]
  simp only [overlay_frame, readByte_overlay, hb', if_neg hb]
  rfl

theorem edge_body_short (h : w.phase = .body)
    (hlen : (readBytes bodyLen s.params.tBody s).1.length < bodyLen) (ms : List Move) :
    workerEdge (overlay w ms s) = .next (endTick (overlay
      { w with rxb := (readBytes bodyLen s.params.tBody s).1 } ms
      (emit [.truncatedFrame (readBytes bodyLen s.params.tBody s).1.length]
        (readBytes bodyLen s.params.tBody s).2))) := by
  rw [workerEdge_body h]
  simp only [overlay_frame, readBytes_overlay, if_pos hlen]
  rfl

theorem edge_body_whole (h : w.phase = .body)
    (hlen : ¬(readBytes bodyLen s.params.tBody s).1.length < bodyLen) (ms : List Move) :
    workerEdge (overlay w ms s) = .next (overlay
      { w with phase := .decode, rxb := (readBytes bodyLen s.params.tBody s).1 } ms
      (readBytes bodyLen s.params.tBody s).2) := by
  rw [workerEdge_body h]
  simp only [overlay_frame, readBytes_overlay, if_neg hlen]
  rfl

theorem edge_decode_invalidEnd (h : w.phase = .decode)
    (hd : decodeStatusFrame s.params w.rxb = .err .invalidEnd) (ms : List Move) :
    workerEdge (overlay w ms s) = .next (endTick (overlay w ms (emit [.invalidTerminator w.rxb] s))) := by
  simp only [workerEdge, overlay_frame, h, hd]
  rfl

theorem edge_decode_checksumMismatch (h : w.phase = .decode)
    (hd : decodeStatusFrame s.params w.rxb = .err .checksumMismatch) (ms : List Move) :
    workerEdge (overlay w ms s) = .next (endTick (overlay w ms (emit [.checksumMismatch w.rxb] s))) := by
  simp only [workerEdge, overlay_frame, h, hd]
  rfl

theorem edge_decode_ok {f : Frame} (h : w.phase = .decode)
    (hd : decodeStatusFrame s.params w.rxb = .ok f) (ms : List Move) :
    workerEdge (overlay w ms s) = .next (overlay { w with phase := .classify, frm := f } ms s) := by
  simp only [workerEdge, overlay_frame, h, hd]
  rfl

theorem edge_classify_noOpportunity (h : w.phase = .classify)
    (ho : isOpportunity s.params w.frm = false) (ms : List Move) :
    workerEdge (overlay w ms s) = .next (toStatusOrIdle (overlay w ms s)) := by
  simp only [workerEdge, overlay_frame, h, ho]
  rfl

theorem edge_classify_empty (h : w.phase = .classify) (ho : isOpportunity s.params w.frm = true)
    (hq : (settleCQ s).cq = []) (ms : List Move) :
    workerEdge (overlay w ms s) = .next (toStatusOrIdle (overlay w ms (settleCQ s))) := by
  simp only [workerEdge, overlay_frame, h, ho, nonEmpty, settleCQ_overlay, hq]
  rfl

theorem edge_classify_opportunity (h : w.phase = .classify) (ho : isOpportunity s.params w.frm = true)
    (hq : (settleCQ s).cq ≠ []) (ms : List Move) :
    workerEdge (overlay w ms s) = .next (overlay
      { w with phase := .oppPop, t0 := s.world.clock } ms (settleCQ s)) := by
  have hne : (settleCQ s).cq.isEmpty = false := by simpa using hq
  simp only [workerEdge, overlay_frame, h, ho, if_true, nonEmpty, settleCQ_overlay, hne, Bool.not_false,
    now, settleCQ_world]
  rfl

theorem edge_oppPop {d : DeviceState} {ds : List DeviceState} (h : w.phase = .oppPop) (hg : s.gCQ = none)
    (hq : s.cq = d :: ds) (ms : List Move) :
    workerEdge (overlay w ms s) = .next (overlay { w with phase := .oppEncode, req := d } ms
      (setQueue ds (blockFreely s))) := by
  simp only [workerEdge, overlay_frame, h, tryDequeue, settleCQ_overlay, settleCQ_of_free hg,
    blockFreely_overlay, blockFreely_cq, hq]
  rfl

theorem edge_oppEncode (h : w.phase = .oppEncode) (ms : List Move) :
    workerEdge (overlay w ms s) = .next (overlay
      { w with phase := .oppCheck, txb := encodeCommandFrame s.params w.req } ms s) := by
  rw [workerEdge_oppEncode h]
  rfl

theorem edge_oppCheck_closed (h : w.phase = .oppCheck) (hg : tBudget < s.world.clock - w.t0)
    (ms : List Move) :
    workerEdge (overlay w ms s) = .next (toStatusOrIdle (overlay
      { w with
        el := s.world.clock - w.t0, req := Config.deadREQ s.world.draws
        txb := Config.deadTXB s.world.draws } ms
      (discardRequest (emit [.sendWindowMissed w.req (s.world.clock - w.t0)] s)))) := by
  rw [workerEdge_oppCheck h]
  exact if_neg (Nat.not_le.mpr hg)

theorem edge_oppCheck_open (h : w.phase = .oppCheck) (hg : s.world.clock - w.t0 ≤ tBudget) (ms : List Move) :
    workerEdge (overlay w ms s) = .next (overlay
      { w with phase := .oppSettle, el := s.world.clock - w.t0 } ms s) := by
  rw [workerEdge_oppCheck h]
  exact if_pos hg

theorem edge_oppSettle (h : w.phase = .oppSettle) (ms : List Move) :
    workerEdge (overlay w ms s) =
      .next (overlay { w with phase := .oppWrite } ms (delay s.params.tSettle s)) := by
  rw [workerEdge_oppSettle h]
  rfl

theorem edge_oppWrite (h : w.phase = .oppWrite) (ms : List Move) :
    workerEdge (overlay w ms s) = .next (overlay { w with phase := .oppWait } ms (writeBytes w.txb s)) := by
  rw [workerEdge_oppWrite h]
  rfl

theorem edge_oppWait (h : w.phase = .oppWait) (ms : List Move) :
    workerEdge (overlay w ms s) =
      .next (toStatusOrIdle (overlay w ms (waitSendComplete s.params.tTxWait s))) := by
  rw [workerEdge_oppWait h, waitSendComplete_overlay]
  rfl

end Edges

/-! ### The tick, from its last phases to its first -/

/-- An edge into the status test: step 5 and the end of the tick take one more edge at most. -/
theorem ticks_statusTest {n : Nat} {w w' : Worker} {s s' : State} {f : Frame} (hs : Ticking s)
    (he : ∀ ms, workerEdge (overlay w ms s) = .next (toStatusOrIdle (overlay w' ms s')))
    (hs' : Ticking s') (hsched : s'.world.sched = s.world.sched) (hf : w'.frm = f) :
    TicksWithin (n + 2) w s (endTick (statusStep f s')) := by
  subst hf
  cases hst : isStatus s'.params w'.frm with
  | false =>
    rw [statusStep_of_not_status hst]
    refine .last (w' := w') hs (fun ms => ?_) hsched
    rw [he, toStatusOrIdle, if_neg (by simp [hst])]
  | true =>
    rw [statusStep_of_status hst]
    refine TicksWithin.edge (w' := { w' with phase := .statusApply }) hs (fun ms => ?_) hsched
      (.last (w' := { w' with phase := .statusApply }) hs' (fun ms => ?_) (by simp [statusUpdate_eq]))
    · rw [he, toStatusOrIdle, if_pos (by simp [hst]), goTo_overlay]
    · rw [workerEdge_statusApply rfl, ← statusUpdate_overlay]
      rfl

theorem ticks_oppWait {w : Worker} {s : State} (hs : Ticking s) (hph : w.phase = .oppWait) :
    TicksWithin 2 w s (endTick (statusStep w.frm (waitSendComplete s.params.tTxWait s))) :=
  ticks_statusTest (n := 0) hs (edge_oppWait hph) ⟨hs.running, hs.actor⟩ (by simp) rfl

/-- From the gate on (R112 to R117), with the request popped, encoded and timed. -/
theorem ticks_openGate {w : Worker} {s : State} (hs : Ticking s) (hph : w.phase = .oppCheck)
    (hg : s.world.clock - w.t0 ≤ tBudget) :
    TicksWithin 5 w s (endTick (statusStep w.frm
      (waitSendComplete s.params.tTxWait (writeBytes w.txb (delay s.params.tSettle s))))) := by
  exact .edge hs (edge_oppCheck_open hph hg) rfl <| .edge hs (edge_oppSettle rfl) rfl <|
    .edge ⟨hs.running, hs.actor⟩ (edge_oppWrite rfl) rfl <| ticks_oppWait ⟨hs.running, hs.actor⟩ rfl

/-- From the encode on, with a popped request in `REQ`: the gate open (R111 to R117). -/
theorem ticks_encode_open {w : Worker} {s : State} (hs : Ticking s) (hph : w.phase = .oppEncode)
    (hg : s.world.clock - w.t0 ≤ tBudget) :
    TicksWithin 6 w s (endTick (statusStep w.frm (waitSendComplete s.params.tTxWait
      (writeBytes (encodeCommandFrame s.params w.req) (delay s.params.tSettle s))))) :=
  .edge hs (edge_oppEncode hph) rfl (ticks_openGate hs rfl hg)

/-- The gate closed (R115). -/
theorem ticks_encode_closed {w : Worker} {s : State} (hs : Ticking s) (hph : w.phase = .oppEncode)
    (hg : tBudget < s.world.clock - w.t0) :
    TicksWithin 6 w s (endTick (statusStep w.frm (discardRequest
      (emit [.sendWindowMissed w.req (s.world.clock - w.t0)] s)))) :=
  .edge hs (edge_oppEncode hph) rfl <|
    ticks_statusTest (n := 3) hs (edge_oppCheck_closed rfl hg) ⟨hs.running, hs.actor⟩ rfl rfl

/-- Both classifications (R106 to R119), by what step 4 can do. -/
theorem ticks_classified {w : Worker} {s : State} (hs : Ticking s) (hph : w.phase = .classify) :
    TicksWithin 8 w s (classified w.frm s) := by
  have hsettled : Ticking (settleCQ s) := ⟨by simp [hs.running], by simp [hs.actor]⟩
  unfold classified
  rcases opportunityStep_cases w.frm s with ⟨ho, e⟩ | ⟨ho, hq, e⟩ | ⟨req, rest, ho, hq, hg, e⟩ |
    ⟨req, rest, ho, hq, hg, e⟩ <;> rw [e]
  · exact ticks_statusTest (n := 6) hs (edge_classify_noOpportunity hph ho) hs rfl rfl
  · exact ticks_statusTest (n := 6) hs (edge_classify_empty hph ho hq) hsettled (by simp) rfl
  all_goals
    have hclock : (setQueue rest (blockFreely (settleCQ s))).world.clock - s.world.clock =
        (nextWait s.world).1 := by simp [blockFreely_clock]
    have hparams : (setQueue rest (blockFreely (settleCQ s))).params = s.params := settleCQ_params s
    refine .edge hs (edge_classify_opportunity hph ho (by simp [hq])) (by simp) <|
      .edge hsettled (edge_oppPop rfl (settleCQ_gCQ s) hq) (by simp) ?_
    have hpopped : Ticking (setQueue rest (blockFreely (settleCQ s))) :=
      ⟨hsettled.running, hsettled.actor⟩
    rw [← hclock] at hg
  · rw [← hparams]
    exact ticks_encode_open hpopped rfl hg
  · rw [← hclock]
    exact ticks_encode_closed hpopped rfl hg

/-- The decode of a whole body and what follows (R104 to R106). -/
theorem ticks_decode {w : Worker} {s : State} (hs : Ticking s) (hph : w.phase = .decode)
    (hlen : bodyLen ≤ w.rxb.length) : TicksWithin 9 w s (withBody w.rxb s) := by
  rcases withBody_cases w.rxb s with ⟨hshort, -⟩ | ⟨-, hd, e⟩ | ⟨-, hd, e⟩ | ⟨-, f, hd, e⟩
  · exact absurd hshort (Nat.not_lt.mpr hlen)
  · exact e ▸ .last hs (edge_decode_invalidEnd hph hd) rfl
  · exact e ▸ .last hs (edge_decode_checksumMismatch hph hd) rfl
  · exact e ▸ .edge hs (edge_decode_ok hph hd) rfl (ticks_classified hs rfl)

/-- The body read and what follows (R103). -/
theorem ticks_body {w : Worker} {s : State} (hs : Ticking s) (hph : w.phase = .body) :
    TicksWithin 10 w s (withBody (readBytes bodyLen s.params.tBody s).1
      (readBytes bodyLen s.params.tBody s).2) := by
  have hread : Ticking (readBytes bodyLen s.params.tBody s).2 := ⟨hs.running, hs.actor⟩
  by_cases hlen : (readBytes bodyLen s.params.tBody s).1.length < bodyLen
  · rw [withBody, if_pos hlen]
    exact .last hs (edge_body_short hph hlen) (by simp)
  · exact .edge hs (edge_body_whole hph hlen) (by simp) (ticks_decode hread rfl (Nat.not_lt.mp hlen))

/-- The poll and what follows (R101, R102). -/
theorem ticks_poll {w : Worker} {s : State} (hs : Ticking s) (hph : w.phase = .poll) :
    TicksWithin 11 w s (tickThrough s) := by
  by_cases hb : s.transport.rx.head? = some s.params.startMark
  · rw [tickThrough_of_start hb]
    have hread : Ticking (readByte s.params.tPoll s).2 := by
      rw [readByte_eq]
      exact ⟨hs.running, hs.actor⟩
    have hp : (readByte s.params.tPoll s).2.params = s.params := by rw [readByte_eq]; rfl
    have hbody := ticks_body (w := { w with phase := .body, sb := s.transport.rx.head? }) hread rfl
    rw [hp] at hbody
    exact .edge hs (edge_poll_start hph hb) (by simp [readByte_eq]) hbody
  · exact tickThrough_of_no_start hb ▸ .last hs (edge_poll_end hph hb) (by simp [readByte_eq])

/-- Settles O45: the first edge leaves `Idle`, and the others are those of `ticks_poll`. -/
theorem phasesRefineTheTick : Obligations.PhasesRefineTheTick := by
  unfold Obligations.PhasesRefineTheTick
  intro s t hr hi hno hstep
  have htick := step_tick (s := overlay s.worker (.tick :: s.world.sched) s) hr hi hno rfl
  have ht : tickThrough (actAs .worker s) = t := Host.Outcome.next.inj (htick.symm.trans hstep)
  obtain ⟨k, hk1, hkn, hrun⟩ := ticks_poll (w := { s.worker with phase := .poll })
    (s := actAs .worker s) ⟨hr, rfl⟩ rfl
  have hfirst : step (overlay s.worker (.worker :: (List.replicate k .worker ++ s.world.sched)) s) =
      .next (overlay { s.worker with phase := .poll } (List.replicate k .worker ++ s.world.sched)
        (actAs .worker s)) := by
    rw [step_overlay hr]
    exact edge_idle (s := actAs .worker s) hi hno _
  rw [ht] at hrun
  exact ⟨k + 1, by omega, by omega, (run_of_step hfirst k).trans hrun⟩

end Sys2Proof.Machine
end

section
/-! PROOFS. The operations on the store, the queue and the transport through `exec`
(spec/41_store_queue.md sections 1 to 3, spec/20_memory.md section 3), and runs of queue operations
(R99). -/
namespace Sys2Proof.Machine

/-! ### The store -/

section Running
variable {s : State} (hr : s.lifecycle = .running)
include hr

/-- `GetStatus` is `Snapshot` (R95): the store, after the copy of the caller that holds its guard. -/
theorem exec_copy {i : Instr} (h : i = .snapshot ∨ i = .getStatus) :
    exec i s = .next (reply (.state s.ds) (settleDS s)) := by
  rw [← settleDS_ds s]
  rcases h with rfl | rfl <;> exact whenRunning_of_running hr _

theorem exec_applyUpdate (f : Frame) :
    exec (.applyUpdate f) s =
      .next (reply .unit (setStore (interpretStatusFrame f s.ds).1 (settleDS s))) := by
  rw [← applyUpdate_eq]
  exact whenRunning_of_running hr _

/-! ### The queue -/

/-- `RequestChange` is `Enqueue` (R96): one entry at the tail, after the one that holds the guard. -/
theorem exec_append {d : DeviceState} {i : Instr} (h : i = .enqueue d ∨ i = .requestChange d) :
    exec i s = .next (reply .unit (setQueue (s.cq ++ waitingEntry s ++ [d]) (settleCQ s))) := by
  rw [← settleCQ_cq_waiting]
  rcases h with rfl | rfl <;> exact whenRunning_of_running hr _

/-- `TryDequeue` answers the head and drops it, or answers `None`. -/
theorem exec_tryDequeue :
    exec .tryDequeue s = .next (reply (.optState (s.cq ++ waitingEntry s).head?)
      (setQueue (s.cq ++ waitingEntry s).tail (blockFreely (settleCQ s)))) := by
  have hexec : exec .tryDequeue s = .next (reply (.optState (tryDequeue s).1) (tryDequeue s).2) :=
    whenRunning_of_running hr _
  rw [hexec, ← settleCQ_cq_waiting]
  rcases tryDequeue_cases s with ⟨hq, e⟩ | ⟨d, ds, hq, e⟩ <;> rw [e, hq]
  · have hself : setQueue [] (blockFreely (settleCQ s)) = blockFreely (settleCQ s) := by
      rw [← hq]
      rfl
    rw [List.tail_nil, hself]
    rfl
  · rfl

theorem exec_nonEmpty :
    exec .nonEmpty s = .next (reply (.bool (decide (s.cq ++ waitingEntry s ≠ []))) (settleCQ s)) := by
  have hexec : exec .nonEmpty s = .next (reply (.bool (nonEmpty s).1) (settleCQ s)) :=
    whenRunning_of_running hr _
  rw [hexec, ← settleCQ_cq_waiting]
  congr 3
  rw [Bool.eq_iff_iff, nonEmpty_fst, decide_eq_true_iff]

/-! ### The transport -/

theorem exec_readByte (timeout : Nat) :
    exec (.readByte timeout) s =
      .next (reply (.optByte s.transport.rx.head?) (blockUpTo timeout (setRx s.transport.rx.tail s))) := by
  have hexec : exec (.readByte timeout) s =
      .next (reply (.optByte (readByte timeout s).1) (readByte timeout s).2) := whenRunning_of_running hr _
  rw [hexec, readByte_eq]

theorem exec_readBytes (count timeout : Nat) :
    exec (.readBytes count timeout) s =
      .next (reply (.bytes (readBytes count timeout s).1) (readBytes count timeout s).2) :=
  whenRunning_of_running hr _

theorem exec_writeBytes (buf : List Byte) :
    exec (.writeBytes buf) s = .next (reply .unit (writeBytes buf s)) := whenRunning_of_running hr _

theorem exec_waitSendComplete (timeout : Nat) :
    exec (.waitSendComplete timeout) s = .next (reply .unit (waitSendComplete timeout s)) :=
  whenRunning_of_running hr _

theorem exec_set (y m q : Byte) :
    exec (.set y m q) s = .next (writeBytes (setFrame s.params y m q) s) := whenRunning_of_running hr _

end Running

/-! ### The statements on single operations -/

/-- Settles O18, by `exec_copy`: only the guard and the replies differ. -/
theorem snapshotReturnsTheStore : Obligations.SnapshotReturnsTheStore := by
  unfold Obligations.SnapshotReturnsTheStore
  intro s i hi hr
  refine ⟨_, exec_copy hr hi, ?_⟩
  simp [settleDS_replies_waiting, SameQueue, SameControl]

/-- Settles O19, by `exec_applyUpdate`: beside the store, only the guard and the replies differ. -/
theorem applyUpdateWritesTheInterpretation : Obligations.ApplyUpdateWritesTheInterpretation := by
  unfold Obligations.ApplyUpdateWritesTheInterpretation
  intro s f hr
  refine ⟨_, exec_applyUpdate hr f, ?_⟩
  simp [settleDS_replies_waiting, SameQueue, SameControl]

/-- Settles O20, by `exec_append`: the two operations are one. -/
theorem enqueueAppendsOneEntry : Obligations.EnqueueAppendsOneEntry := by
  unfold Obligations.EnqueueAppendsOneEntry
  intro s d i hi hr
  refine ⟨_, exec_append hr hi, ?_⟩
  simp [settleCQ_replies_waiting, SameStore, SameControl]

theorem waitingEntryReply_of_nil {s : State} (h : s.cq ++ waitingEntry s = []) :
    waitingEntryReply s = [] := waitingEntryReply_of_free (queue_free_of_nil h).2

/-- Settles O21: head and tail of the queue with the waiting entry, and the time the wait takes. -/
theorem tryDequeuePopsTheHead : Obligations.TryDequeuePopsTheHead := by
  unfold Obligations.TryDequeuePopsTheHead
  intro s hr
  refine ⟨_, exec_tryDequeue hr, fun d rest hq => ?_, fun hq => ?_, ?_⟩
  · simp [hq, settleCQ_replies_waiting]
  · simp [hq, settleCQ_replies_waiting, waitingEntryReply_of_nil hq]
  · simp [SameStore, SameControl, TimePassed, blockFreely_clock]

/-- Settles O22, by `exec_nonEmpty`: what changes is what the wait for the guard changes. -/
theorem nonEmptyTestsTheQueue : Obligations.NonEmptyTestsTheQueue := by
  unfold Obligations.NonEmptyTestsTheQueue
  intro s hr
  refine ⟨_, exec_nonEmpty hr, ?_⟩
  simp only [reply_cq, settleCQ_cq_waiting, reply_trace_replies, settleCQ_replies_waiting]
  simp [SameStore, SameControl]

/-- Settles O25: head and tail of the receive buffer, and a blocking call's bounds. -/
theorem readByteTakesTheOldest : Obligations.ReadByteTakesTheOldest := by
  unfold Obligations.ReadByteTakesTheOldest
  intro s timeout hr
  refine ⟨_, exec_readByte hr timeout, ?_⟩
  simpa [SameStore, SameQueue, SameControl, TimePassed] using
    blockUpTo_clock_bounds timeout (setRx s.transport.rx.tail s)

/-- Settles O26: the buffer is what was read and what is left (`readBytes_append`). -/
theorem readBytesTakesTheNext : Obligations.ReadBytesTakesTheNext := by
  unfold Obligations.ReadBytesTakesTheNext
  intro s count timeout hr
  refine ⟨_, _, exec_readBytes hr count timeout, readBytes_length_le count timeout s, rfl,
    (readBytes_append count timeout s).symm, ?_⟩
  simpa [SameStore, SameQueue, SameControl, TimePassed] using readBytes_clock_bounds count timeout s

/-- A burst ends the read at its own length, or at the count. -/
theorem readBytes_fst_of_burst {n t k : Nat} {ks : List Nat} {s : State} (h : s.world.bursts = k :: ks) :
    (readBytes n t s).1 = s.transport.rx.take (min n k) := by
  have hb : (blockUpTo t s).world.bursts = k :: ks := by
    simp only [blockUpTo, World.pass]
    rcases nextWait_cases s.world with ⟨d, ds, -, e⟩ | ⟨-, e⟩ <;> simp [e, h]
  simp [readBytes, nextBurst, hb]

/-- Settles O27: the environment is the one whose next burst has that length. -/
theorem readBytesMayReturnAnyLength : Obligations.ReadBytesMayReturnAnyLength := by
  unfold Obligations.ReadBytesMayReturnAnyLength
  intro s count timeout k hr hk _
  refine ⟨_, exec_readBytes (s := { s with world := { s.world with bursts := [k] } }) hr count timeout, ?_⟩
  rw [reply_trace_replies, readBytes_fst_of_burst rfl, Nat.min_eq_right hk]
  rfl

/-- Settles O28: the two calls touch the trace of writes and the clock only. -/
theorem writeAndWait : Obligations.WriteAndWait := by
  unfold Obligations.WriteAndWait
  intro s hr
  refine ⟨fun buf => ⟨_, exec_writeBytes hr buf, ?_⟩,
    fun timeout => ⟨_, exec_waitSendComplete hr timeout, ?_⟩⟩
  · simp [SameStore, SameQueue, SameControl]
  · simpa [SameStore, SameQueue, SameControl, TimePassed] using waitSendComplete_clock_bounds timeout s

/-- Settles O36: a `SET` is one call of `WriteBytes`. -/
theorem setIsHandedToTheTransport : Obligations.SetIsHandedToTheTransport := by
  unfold Obligations.SetIsHandedToTheTransport
  intro s y m q hr
  refine ⟨_, exec_set hr y m q, ?_⟩
  simp [SameStore, SameQueue, SameControl]

/-! ### Runs of queue operations -/

/-- From `s` the block has run on to `t` with the queue's guard free; the queue is then `q`, and the values
`r` have been returned. -/
structure QueueRun (s t : State) (q : List DeviceState) (r : List (Agent × Answer)) : Prop where
  running : t.lifecycle = .running
  free : t.gCQ = none
  actor : t.actor = s.actor
  queue : t.cq = q
  replies : t.trace.replies = s.trace.replies ++ r

theorem QueueRun.refl {s : State} (hr : s.lifecycle = .running) (hg : s.gCQ = none) :
    QueueRun s s s.cq [] := ⟨hr, hg, rfl, rfl, by simp⟩

theorem QueueRun.trans {s u t : State} {q q' : List DeviceState} {r r' : List (Agent × Answer)}
    (h : QueueRun s u q r) (k : QueueRun u t q' r') : QueueRun s t q' (r ++ r') :=
  ⟨k.running, k.free, k.actor.trans h.actor, k.queue, by rw [k.replies, h.replies, List.append_assoc]⟩

section FreeGuard
variable {s : State} (hr : s.lifecycle = .running) (hg : s.gCQ = none)
include hr hg

theorem queueRun_enqueue (d : DeviceState) :
    ∃ t, exec (.enqueue d) s = .next t ∧ QueueRun s t (s.cq ++ [d]) [(s.actor, .unit)] := by
  refine ⟨_, exec_append hr (.inl rfl), ?_⟩
  constructor <;> simp [settleCQ_of_free hg, hr, hg]

theorem queueRun_tryDequeue :
    ∃ t, exec .tryDequeue s = .next t ∧
      QueueRun s t s.cq.tail [(s.actor, .optState s.cq.head?)] := by
  refine ⟨_, exec_tryDequeue hr, ?_⟩
  constructor <;> simp [settleCQ_of_free hg, hr, hg]

end FreeGuard

theorem runAll_cons_of_next {i : Instr} {is : List Instr} {s t : State} (h : exec i s = .next t) :
    runAll (i :: is) s = runAll is t := by
  simp only [runAll, h]

theorem runAll_append_of_next {is js : List Instr} {s t : State} (h : runAll is s = .next t) :
    runAll (is ++ js) s = runAll js t := by
  induction is generalizing s with
  | nil =>
    cases h
    rfl
  | cons i is ih =>
    cases he : exec i s with
    | next u =>
      rw [runAll_cons_of_next he] at h
      rw [List.cons_append, runAll_cons_of_next he, ih h]
    | fault f => simp [runAll, he] at h
    | refused r => simp [runAll, he] at h

/-- Enqueues add their entries in order. -/
theorem runAll_enqueue (ds : List DeviceState) {s : State} (hr : s.lifecycle = .running)
    (hg : s.gCQ = none) :
    ∃ t, runAll (ds.map Instr.enqueue) s = .next t ∧
      QueueRun s t (s.cq ++ ds) (ds.map fun _ => (s.actor, .unit)) := by
  induction ds generalizing s with
  | nil => exact ⟨s, rfl, by simpa using QueueRun.refl hr hg⟩
  | cons d ds ih =>
    obtain ⟨u, he, hu⟩ := queueRun_enqueue hr hg d
    obtain ⟨t, hrun, ht⟩ := ih hu.running hu.free
    refine ⟨t, (runAll_cons_of_next he).trans hrun, ?_⟩
    have := hu.trans ht
    rw [hu.queue, hu.actor] at this
    simpa using this

/-- As many dequeues as there are entries, and one more, return the entries in order and then `None`. -/
theorem runAll_tryDequeue (ds : List DeviceState) {s : State} (hr : s.lifecycle = .running)
    (hg : s.gCQ = none) (hq : s.cq = ds) :
    ∃ t, runAll (List.replicate (ds.length + 1) Instr.tryDequeue) s = .next t ∧
      QueueRun s t [] (ds.map (fun d => (s.actor, .optState (some d))) ++ [(s.actor, .optState none)]) := by
  induction ds generalizing s with
  | nil =>
    obtain ⟨u, he, hu⟩ := queueRun_tryDequeue hr hg
    rw [hq] at hu
    exact ⟨u, runAll_cons_of_next he, hu⟩
  | cons d ds ih =>
    obtain ⟨u, he, hu⟩ := queueRun_tryDequeue hr hg
    rw [hq] at hu
    obtain ⟨t, hrun, ht⟩ := ih hu.running hu.free hu.queue
    refine ⟨t, (runAll_cons_of_next he).trans hrun, ?_⟩
    have := hu.trans ht
    rw [hu.actor] at this
    simpa using this

/-- Any interleaving of queue operations: what is popped and what is left are what was there and what was
added, in order (R99). -/
theorem runAll_queueInstr (ops : List (Option DeviceState)) {s : State} (hr : s.lifecycle = .running)
    (hg : s.gCQ = none) :
    ∃ t q added, runAll (ops.map queueInstr) s = .next t ∧ QueueRun s t q added ∧
      poppedIn added ++ q = s.cq ++ ops.filterMap id := by
  induction ops generalizing s with
  | nil => exact ⟨s, _, _, rfl, .refl hr hg, by simp [poppedIn]⟩
  | cons o ops ih =>
    cases o with
    | some d =>
      obtain ⟨u, he, hu⟩ := queueRun_enqueue hr hg d
      obtain ⟨t, q, added, hrun, ht, hpop⟩ := ih hu.running hu.free
      refine ⟨t, q, _, (runAll_cons_of_next he).trans hrun, hu.trans ht, ?_⟩
      rw [hu.queue] at hpop
      simpa [poppedIn] using hpop
    | none =>
      obtain ⟨u, he, hu⟩ := queueRun_tryDequeue hr hg
      obtain ⟨t, q, added, hrun, ht, hpop⟩ := ih hu.running hu.free
      refine ⟨t, q, _, (runAll_cons_of_next he).trans hrun, hu.trans ht, ?_⟩
      rw [hu.queue] at hpop
      cases hq : s.cq <;> simpa [poppedIn, hq] using hpop

/-- Settles O24, by `runAll_queueInstr`. -/
theorem queueLosesAndReordersNothing : Obligations.QueueLosesAndReordersNothing := by
  unfold Obligations.QueueLosesAndReordersNothing
  intro ops s hr hg
  obtain ⟨t, q, added, hrun, ht, hpop⟩ := runAll_queueInstr ops hr hg
  exact ⟨t, added, hrun, ht.replies, ht.queue ▸ hpop⟩

/-- Settles O23: the enqueues, then the dequeues; and what an interleaving leaves in the queue is what
the values popped lack of those enqueued. -/
theorem fifoOrder : Obligations.FifoOrder := by
  unfold Obligations.FifoOrder
  refine ⟨fun ds s hr hq hg => ?_, fun ops s hr hq hg => ?_⟩
  · obtain ⟨u, hrun, hu⟩ := runAll_enqueue ds hr hg
    rw [hq, List.nil_append] at hu
    obtain ⟨t, hrun', ht⟩ := runAll_tryDequeue ds hu.running hu.free hu.queue
    have htotal := hu.trans ht
    rw [hu.actor] at htotal
    exact ⟨t, (runAll_append_of_next hrun).trans hrun', ht.queue, by simpa using htotal.replies⟩
  · obtain ⟨t, q, added, hrun, ht, hpop⟩ := runAll_queueInstr ops hr hg
    rw [hq, List.nil_append] at hpop
    exact ⟨t, added, hrun, ht.replies, q, hpop⟩

end Sys2Proof.Machine
end

section
/-! PROOFS. Frames (spec/30_encoding.md section 4, spec/42_bus_worker.md sections 2 to 7): the reject rows,
step 4 by the gate, and the frame rows field by field. -/
namespace Sys2Proof.Machine

/-! ### The reject rows -/

theorem decode_invalidEnd_iff {p : Params} {raw : List Byte} :
    decodeStatusFrame p raw = .err .invalidEnd ↔ byteAt raw 12 ≠ p.endMark := by
  rcases decodeStatusFrame_cases p raw with ⟨hend, e⟩ | ⟨hend, -, e⟩ | ⟨hend, -, e⟩ <;> rw [e]
  · exact ⟨fun _ => hend, fun _ => rfl⟩
  · exact ⟨nofun, fun h => absurd hend h⟩
  · exact ⟨nofun, fun h => absurd hend h⟩

theorem decode_checksumMismatch_iff {p : Params} {raw : List Byte} :
    decodeStatusFrame p raw = .err .checksumMismatch ↔
      byteAt raw 12 = p.endMark ∧ byteAt raw 11 ≠ checksum raw := by
  rcases decodeStatusFrame_cases p raw with ⟨hend, e⟩ | ⟨hend, hsum, e⟩ | ⟨-, hsum, e⟩ <;> rw [e]
  · exact ⟨nofun, fun h => absurd h.1 hend⟩
  · exact ⟨fun _ => ⟨hend, hsum⟩, fun _ => rfl⟩
  · exact ⟨nofun, fun h => absurd hsum h.2⟩

/-- The reject rows (R58), each with what it adds to the event stream (R102, R104, R105). -/
inductive RejectRow : Instr → List Event → Prop
  | notStart (b : Byte) : RejectRow (.rejectNotStart b) []
  | truncated (r : List Byte) : RejectRow (.rejectTruncated r) [.truncatedFrame r.length]
  | invalidEnd (raw : List Byte) : RejectRow (.rejectInvalidEnd raw) [.invalidTerminator raw]
  | checksum (raw : List Byte) : RejectRow (.rejectChecksum raw) [.checksumMismatch raw]

/-- A reject row whose bytes are rejected for its reason ends the tick with its event; any other is no
instruction. -/
theorem RejectRow.exec_eq {i : Instr} {es : List Event} (h : RejectRow i es) (s : State) :
    exec i s = if i.wf s.params = true then whenBetweenTicks s (.next (endTick (emit es s)))
      else .refused .illFormed := by
  cases h with
  | notStart b =>
    rw [emit_nil]
    by_cases hb : b = s.params.startMark
    · rw [if_neg (by simp [Instr.wf, hb])]
      exact if_pos hb
    · rw [if_pos (by simpa [Instr.wf] using hb)]
      exact if_neg hb
  | truncated r =>
    by_cases hlen : bodyLen ≤ r.length
    · rw [if_neg (by simpa [Instr.wf] using hlen)]
      exact if_pos hlen
    · rw [if_pos (by simpa [Instr.wf] using hlen)]
      exact if_neg hlen
  | invalidEnd raw =>
    have hwf : ((Instr.rejectInvalidEnd raw).wf s.params = true) ↔
        raw.length = bodyLen ∧ decodeStatusFrame s.params raw = .err .invalidEnd := by
      rw [decode_invalidEnd_iff]
      simp only [Instr.wf, Bool.and_eq_true, beq_iff_eq, bne_iff_ne]
    simp only [hwf]
    rfl
  | checksum raw =>
    have hwf : ((Instr.rejectChecksum raw).wf s.params = true) ↔
        raw.length = bodyLen ∧ decodeStatusFrame s.params raw = .err .checksumMismatch := by
      rw [decode_checksumMismatch_iff]
      simp only [Instr.wf, Bool.and_eq_true, beq_iff_eq, bne_iff_ne, and_assoc]
    simp only [hwf]
    rfl

theorem RejectRow.exec_of_wf {i : Instr} {es : List Event} {s : State} (h : RejectRow i es)
    (hr : s.lifecycle = .running) (hi : s.worker.phase = .idle) (hwf : i.wf s.params = true) :
    exec i s = .next (endTick (emit es s)) := by
  rw [h.exec_eq, if_pos hwf, whenBetweenTicks_of_idle hr hi]

/-- The reject rows in the words of the statements. -/
theorem rejectRow_of_cases {i : Instr} {es : List Event}
    (h : (∃ b, i = .rejectNotStart b ∧ es = []) ∨
      (∃ r, i = .rejectTruncated r ∧ es = [.truncatedFrame r.length]) ∨
      (∃ raw, i = .rejectInvalidEnd raw ∧ es = [.invalidTerminator raw]) ∨
      (∃ raw, i = .rejectChecksum raw ∧ es = [.checksumMismatch raw])) : RejectRow i es := by
  rcases h with ⟨b, rfl, rfl⟩ | ⟨r, rfl, rfl⟩ | ⟨raw, rfl, rfl⟩ | ⟨raw, rfl, rfl⟩
  · exact .notStart b
  · exact .truncated r
  · exact .invalidEnd raw
  · exact .checksum raw

/-- Settles O29: the tick ends and the event is added, and that is all. -/
theorem rejectedEncodingsEndTheTick : Obligations.RejectedEncodingsEndTheTick := by
  unfold Obligations.RejectedEncodingsEndTheTick
  intro s i es hr hi hwf h
  refine ⟨_, (rejectRow_of_cases h).exec_of_wf hr hi hwf, ?_⟩
  simp [SameStore, SameQueue, SameControl]

/-! ### Step 4 by the gate -/

section Gate
variable {f : Frame} {s : State} {req : DeviceState} {rest : List DeviceState} {el : Nat} {waits : List Nat}

/-- R108: an opportunity over an empty queue. -/
theorem opportunityStep_of_empty (ho : isOpportunity s.params f = true) (hq : s.cq ++ waitingEntry s = []) :
    opportunityStep f s = s := by
  have hc' : (settleCQ s).cq = [] := (settleCQ_cq_waiting s).trans hq
  rcases opportunityStep_cases f s with ⟨hn, -⟩ | ⟨-, -, e⟩ | ⟨_, _, -, hc, -⟩ | ⟨_, _, -, hc, -⟩
  · exact nomatch hn.symm.trans ho
  · exact e.trans (settleCQ_of_free (queue_free_of_nil hq).2)
  · exact nomatch hc'.symm.trans hc
  · exact nomatch hc'.symm.trans hc

/-- R109 to R114, R116: the head is popped and its frame written. -/
theorem opportunityStep_of_open (ho : isOpportunity s.params f = true) (hw : s.world.waits = el :: waits)
    (hg : el ≤ 180) (hq : s.cq ++ waitingEntry s = req :: rest) :
    opportunityStep f s =
      waitSendComplete s.params.tTxWait (writeBytes (encodeCommandFrame s.params req)
        (delay s.params.tSettle (setQueue rest (blockFreely (settleCQ s))))) := by
  rw [← settleCQ_cq_waiting] at hq
  have hel : (nextWait s.world).1 = el := by rw [nextWait_of_cons hw]
  rcases opportunityStep_cases f s with ⟨hn, -⟩ | ⟨-, hc, -⟩ | ⟨_, _, -, hc, -, e⟩ | ⟨_, _, -, -, hgt, -⟩
  · exact nomatch hn.symm.trans ho
  · exact nomatch hq.symm.trans hc
  · cases hq.symm.trans hc
    exact e
  · rw [hel, tBudget] at hgt
    omega

/-- R115: the head is popped and lost. -/
theorem opportunityStep_of_closed (ho : isOpportunity s.params f = true) (hw : s.world.waits = el :: waits)
    (hg : 180 < el) (hq : s.cq ++ waitingEntry s = req :: rest) :
    opportunityStep f s =
      discardRequest (emit [.sendWindowMissed req el] (setQueue rest (blockFreely (settleCQ s)))) := by
  rw [← settleCQ_cq_waiting] at hq
  have hel : (nextWait s.world).1 = el := by rw [nextWait_of_cons hw]
  rcases opportunityStep_cases f s with ⟨hn, -⟩ | ⟨-, hc, -⟩ | ⟨_, _, -, -, hle, -⟩ | ⟨_, _, -, hc, -, e⟩
  · exact nomatch hn.symm.trans ho
  · exact nomatch hq.symm.trans hc
  · rw [hel, tBudget] at hle
    omega
  · cases hq.symm.trans hc
    exact hel ▸ e

end Gate

/-! ### Both classifications, field by field -/

theorem classified_cq (f : Frame) (s : State) : (classified f s).cq = (opportunityStep f s).cq := by
  simp [classified]

theorem classified_written (f : Frame) (s : State) :
    (classified f s).trace.written = (opportunityStep f s).trace.written := by
  simp [classified]

theorem classified_clock (f : Frame) (s : State) :
    (classified f s).world.clock = (opportunityStep f s).world.clock := by
  obtain ⟨-, -, -, hworld, -⟩ := statusStep_frame f (opportunityStep f s)
  rw [classified, endTick_clock, hworld]

/-- A frame that is neither causes nothing but the end of the tick; so does an opportunity over an empty
queue that is no status frame. -/
theorem classified_of_nothing {f : Frame} {s : State} (hst : isStatus s.params f = false)
    (h : opportunityStep f s = s) : classified f s = endTick s := by
  rw [classified, h, statusStep_of_not_status hst]

theorem opportunityStep_of_not_opportunity {f : Frame} {s : State} (h : isOpportunity s.params f = false) :
    opportunityStep f s = s := by
  simp [opportunityStep, h]

/-- The end of a tick alone: dead registers. -/
theorem endTick_leaves (s : State) :
    SameQueue s (endTick s) ∧ SameStore s (endTick s) ∧ SameOutput s (endTick s) ∧
      (endTick s).worker.phase = .idle ∧ SameControl s (endTick s) ∧
      (endTick s).transport = s.transport ∧ (endTick s).world.sched = s.world.sched ∧
      (endTick s).world.clock = s.world.clock :=
  ⟨⟨rfl, rfl⟩, ⟨rfl, rfl⟩, rfl, rfl, ⟨rfl, rfl, rfl, rfl⟩, rfl, rfl, rfl⟩

/-! ### The frame rows -/

theorem exec_opportunity {s : State} (hr : s.lifecycle = .running) (hi : s.worker.phase = .idle)
    (source command : Byte) (d : Data) :
    exec (.opportunity source command d) s =
      .next (classified (recordOf source s.params.addrMarker command d) s) := whenBetweenTicks_of_idle hr hi _

/-- Rows 2 to 4 are frames from the unit to the remote. -/
theorem exec_status_row {s : State} {i : Instr} {c : Byte} {d : Data} (hr : s.lifecycle = .running)
    (hi : s.worker.phase = .idle)
    (h : (i = .status52 d ∧ c = 0x52) ∨ (i = .mode53 d ∧ c = 0x53) ∨ i = .statusOther c d) :
    exec i s = .next (classified (recordOf s.params.addrUnit s.params.addrRemote c d) s) := by
  rcases h with ⟨rfl, rfl⟩ | ⟨rfl, rfl⟩ | rfl <;> exact whenBetweenTicks_of_idle hr hi _

theorem isOpportunity_to_marker (p : Params) (source command : Byte) (d : Data) :
    isOpportunity p (recordOf source p.addrMarker command d) = true := by
  simp [isOpportunity, recordOf]

theorem isStatus_from_unit (p : Params) (command : Byte) (d : Data) :
    isStatus p (recordOf p.addrUnit p.addrRemote command d) = true := by
  simp [isStatus, recordOf]

theorem not_isStatus_to_marker {p : Params} {source : Byte} (command : Byte) (d : Data)
    (h : p.addrMarker ≠ p.addrRemote ∨ source ≠ p.addrUnit) :
    isStatus p (recordOf source p.addrMarker command d) = false := by
  rcases h with h | h <;> simp [isStatus, recordOf, h]

/-- Settles O30, by `opportunityStep_of_open`; step 5 is read off the status test. -/
theorem openGateTransmitsTheHead : Obligations.OpenGateTransmitsTheHead := by
  unfold Obligations.OpenGateTransmitsTheHead
  intro s source command d el waits req rest hr hi hw hg hq
  have ho := isOpportunity_to_marker s.params source command d
  have hstep := opportunityStep_of_open ho hw hg hq
  have hwait : (nextWait s.world).1 = el := by rw [nextWait_of_cons hw]
  have hclock := waitSendComplete_clock_bounds s.params.tTxWait
    (writeBytes (encodeCommandFrame s.params req)
      (delay s.params.tSettle (setQueue rest (blockFreely (settleCQ s)))))
  rw [← hstep, ← classified_clock, writeBytes_world, delay_clock, setQueue_world, blockFreely_clock,
    settleCQ_world, hwait] at hclock
  obtain ⟨hphase, hcontrol, htransport, htime, -⟩ :=
    classified_frame (recordOf source s.params.addrMarker command d) s
  refine ⟨_, exec_opportunity hr hi source command d, ?_, ?_, ?_, hphase, hcontrol, htransport, htime.1,
    hclock.1, hclock.2, fun hns => ?_⟩
  · rw [classified_cq, hstep]
    rfl
  · rw [classified_gCQ, if_pos ho]
  · rw [classified_written, hstep]
    simp
  · have hst := not_isStatus_to_marker command d hns
    refine ⟨by simp [classified_ds, hst], by simp [classified_gDS, hst], ?_, ?_⟩
    · simp [classified_events, hst, hstep]
    · simp [classified_replies, hst, ho]

/-- Settles O31, by `opportunityStep_of_closed`; the further events are those of step 5. -/
theorem closedGateLosesTheHead : Obligations.ClosedGateLosesTheHead := by
  unfold Obligations.ClosedGateLosesTheHead
  intro s source command d el waits req rest hr hi hw hg hq
  have ho := isOpportunity_to_marker s.params source command d
  have hstep := opportunityStep_of_closed ho hw hg hq
  have hwait : (nextWait s.world).1 = el := by rw [nextWait_of_cons hw]
  obtain ⟨hphase, hcontrol, htransport, htime, -⟩ :=
    classified_frame (recordOf source s.params.addrMarker command d) s
  have hevents := classified_events (recordOf source s.params.addrMarker command d) s
  rw [hstep] at hevents
  refine ⟨_, _, exec_opportunity hr hi source command d, ?_, ?_, ?_, by simpa using hevents, hphase, hcontrol,
    htransport, htime.1, ?_, fun hns => ?_⟩
  · rw [classified_cq, hstep]
    rfl
  · rw [classified_gCQ, if_pos ho]
  · rw [classified_written, hstep]
    simp
  · rw [classified_clock, hstep]
    simp [blockFreely_clock, hwait]
  · have hst := not_isStatus_to_marker command d hns
    refine ⟨by simp [hst], by simp [classified_ds, hst], by simp [classified_gDS, hst], ?_⟩
    simp [classified_replies, hst, ho]

/-- Settles O32: neither step does anything. -/
theorem opportunityWithEmptyQueue : Obligations.OpportunityWithEmptyQueue := by
  unfold Obligations.OpportunityWithEmptyQueue
  intro s source command d hr hi hq hg hns
  have hempty : s.cq ++ waitingEntry s = [] := by simp [hq, hg]
  have hnothing := classified_of_nothing (not_isStatus_to_marker command d hns)
    (opportunityStep_of_empty (isOpportunity_to_marker s.params source command d) hempty)
  exact ⟨endTick s, (exec_opportunity hr hi source command d).trans (by rw [hnothing]), endTick_leaves s⟩

/-- Settles O34: neither test is met. -/
theorem unaddressedFramesCauseNothing : Obligations.UnaddressedFramesCauseNothing := by
  unfold Obligations.UnaddressedFramesCauseNothing
  intro s source destination command d hr hi hwf
  have hexec : exec (.unaddressed source destination command d) s =
      .next (classified (recordOf source destination command d) s) := whenBetweenTicks_of_idle hr hi _
  simp only [Instr.wf, notMarker, Bool.and_eq_true, bne_iff_ne, Bool.not_eq_true'] at hwf
  obtain ⟨hmarker, hst⟩ := hwf
  have ho : isOpportunity s.params (recordOf source destination command d) = false := by
    simpa [isOpportunity, recordOf] using hmarker
  have hnothing := classified_of_nothing (f := recordOf source destination command d) hst
    (opportunityStep_of_not_opportunity ho)
  exact ⟨endTick s, hexec.trans (by rw [hnothing]), endTick_leaves s⟩

/-! ### Status frames -/

/-- The new store by the command (R74 to R80). -/
theorem interpret_record_fst (a b c : Byte) (d : Data) (prior : DeviceState) :
    (c = 0x52 → (interpretStatusFrame (recordOf a b c d) prior).1 =
      { prior with power := powerOf d.d4, fanSpeed := fanOf d.d3, temperature := temperatureOf d.d0 }) ∧
    (c = 0x53 → (interpretStatusFrame (recordOf a b c d) prior).1 =
      { prior with mode := (modeOf d.d7).getD prior.mode }) ∧
    (c ≠ 0x52 → c ≠ 0x53 → (interpretStatusFrame (recordOf a b c d) prior).1 = prior) := by
  rcases interpretStatusFrame_cases (recordOf a b c d) prior with ⟨hc, e⟩ | ⟨hc, e⟩ | ⟨h53, h52, e⟩ <;>
    rw [e]
  · have hc : c = 0x53 := hc
    exact ⟨fun h => absurd (hc.symm.trans h) (by decide), fun _ => interpret53_fst d prior,
      fun _ h => absurd hc h⟩
  · have hc : c = 0x52 := hc
    exact ⟨fun _ => rfl, fun h => absurd (hc.symm.trans h) (by decide), fun h => absurd hc h⟩
  · exact ⟨fun h => absurd h h52, fun h => absurd h h53, fun _ _ => rfl⟩

/-- Settles O33: step 4 is not taken, and step 5 is `statusUpdate_eq` with the events of the fields that
differ. -/
theorem statusFramesUpdateTheStore : Obligations.StatusFramesUpdateTheStore := by
  unfold Obligations.StatusFramesUpdateTheStore
  intro s i c d hr hi hne hrow
  have hexec := exec_status_row hr hi (hrow.imp_right fun h => h.imp_right And.left)
  have ho : isOpportunity s.params (recordOf s.params.addrUnit s.params.addrRemote c d) = false := by
    simpa [isOpportunity, recordOf] using hne.symm
  have hst := isStatus_from_unit s.params c d
  rw [classified, opportunityStep_of_not_opportunity ho, statusStep_of_status hst, statusUpdate_eq,
    changedEvents_interpret] at hexec
  obtain ⟨h52, h53, hother⟩ :=
    interpret_record_fst s.params.addrUnit s.params.addrRemote c d s.ds
  refine ⟨_, hexec, h52, h53, hother, ?_⟩
  simp [settleDS_replies_waiting, SameQueue, SameControl]

/-- Settles O35: both tests are met; the queue and the bus are read off step 4, the store off step 5. -/
theorem bothClassificationsApply : Obligations.BothClassificationsApply := by
  unfold Obligations.BothClassificationsApply
  intro s i command d f hr hi hsame hf hrow
  have hexec : exec i s = .next (classified f s) := by
    rw [hf]
    rcases hrow with rfl | hrow
    · rw [← hsame]
      exact exec_opportunity hr hi _ command d
    · exact exec_status_row hr hi hrow
  have ho : isOpportunity s.params f = true := by
    rw [hf, ← hsame]
    exact isOpportunity_to_marker s.params _ command d
  have hst : isStatus s.params f = true := hf ▸ isStatus_from_unit s.params command d
  have hds : (classified f s).ds = (interpretStatusFrame f s.ds).1 := by rw [classified_ds, if_pos hst]
  have hevents := classified_events f s
  rw [if_pos hst, ← hds] at hevents
  obtain ⟨hphase, hcontrol, htransport, htime, -⟩ := classified_frame f s
  refine ⟨_, hexec, hds, by rw [classified_gDS, if_pos hst], by rw [classified_gCQ, if_pos ho],
    by rw [classified_replies, if_pos ho, if_pos hst], hphase, hcontrol, htransport, htime,
    fun el waits req rest hw hq => ?_, fun hq => ?_⟩
  · rw [classified_cq, classified_written, hevents]
    by_cases hg : el ≤ 180
    · rw [opportunityStep_of_open ho hw hg hq]
      simp [hg]
    · rw [opportunityStep_of_closed ho hw (by omega) hq]
      simp [hg]
  · rw [classified_cq, classified_written, hevents, opportunityStep_of_empty ho hq]
    exact ⟨(queue_free_of_nil hq).1, rfl, rfl⟩

end Sys2Proof.Machine
end

section
/-! PROOFS. Ticks by what the transport holds (spec/42_bus_worker.md sections 1 to 3), and the steps that run
a decoded, an encoded or a called instruction (spec/20_memory.md section 4, spec/60_exceptions.md section
5). -/
namespace Sys2Proof.Machine

/-! ### Ticks -/

/-- Settles O38: only the read happens before the tick ends. -/
theorem tickWithoutAFrame : Obligations.TickWithoutAFrame := by
  unfold Obligations.TickWithoutAFrame
  intro s hr hi hb
  have hexec := exec_tick hr hi
  rw [tickThrough_of_no_start hb, readByte_eq] at hexec
  refine ⟨_, hexec, ?_⟩
  simpa [SameStore, SameQueue, SameOutput, SameControl, TimePassed] using
    blockUpTo_clock_bounds s.params.tPoll (setRx s.transport.rx.tail s)

@[simp] theorem blockUpTo_bursts (t : Nat) (s : State) :
    (blockUpTo t s).world.bursts = s.world.bursts := by
  simp only [blockUpTo, World.pass]
  rcases nextWait_cases s.world with ⟨d, ds, -, e⟩ | ⟨-, e⟩ <;> rw [e]

/-- Settles O39: a whole burst takes all that waits, which is too short. -/
theorem tickDropsATruncatedFrame : Obligations.TickDropsATruncatedFrame := by
  unfold Obligations.TickDropsATruncatedFrame
  intro s received hr hi hrx hlen hburst
  obtain ⟨ks, hks⟩ : ∃ ks, s.world.bursts = 13 :: ks := by
    cases h : s.world.bursts <;> simp_all
  have hb : s.transport.rx.head? = some s.params.startMark := by rw [hrx]; rfl
  have hread : (readByte s.params.tPoll s).2 = blockUpTo s.params.tPoll (setRx received s) := by
    rw [readByte_eq, hrx]
    rfl
  have hgot : (readBytes bodyLen s.params.tBody (readByte s.params.tPoll s).2).1 = received := by
    rw [hread, readBytes_of_burst (n := bodyLen) (k := 13) (ks := ks) (by simpa using hks) (Nat.le_refl 13)]
    exact List.take_of_length_le hlen.le
  have hleft := readBytes_append bodyLen s.params.tBody (readByte s.params.tPoll s).2
  have hm := workerMove_tickThrough s
  have htick := tickThrough_of_start hb
  rw [hgot, withBody, if_pos (show received.length < bodyLen from hlen)] at htick
  rw [hgot, hread] at hleft
  refine ⟨_, exec_tick hr hi, ?_, ?_, ?_, ?_, ?_, ?_, hm.control, tickThrough_phase s, hm.time⟩ <;>
    rw [htick, hread]
  · simpa using hleft
  · simp
  · simp
  · simp
  · simp [SameStore]
  · simp [SameQueue]

/-! ### Decoded instructions -/

/-- The row of a whole body does what a tick does with that body, and is well formed. -/
theorem exec_rowOfBody {raw : List Byte} {s : State} (hr : s.lifecycle = .running)
    (hi : s.worker.phase = .idle) (hlen : raw.length = bodyLen) :
    exec (rowOfBody s.params raw) s = .next (withBody raw s) := by
  have hwf := (rowOfBody_wf_encode s.params hlen).1
  rcases decodeStatusFrame_cases s.params raw with ⟨hend, hd⟩ | ⟨hend, hsum, hd⟩ | ⟨-, hsum, hd⟩ <;>
    rw [withBody, if_neg (by omega), hd]
  · rw [rowOfBody_of_bad_end hend] at hwf ⊢
    exact (RejectRow.invalidEnd raw).exec_of_wf hr hi hwf
  · rw [rowOfBody_of_bad_checksum hend hsum] at hwf ⊢
    exact (RejectRow.checksum raw).exec_of_wf hr hi hwf
  · rw [rowOfBody_of_ok hd]
    refine (exec_rowOfFrame hr hi ?_).1
    rw [covered_frameOfBody (by simp only [bodyLen] at hlen; omega), ← hsum]
    rfl

/-- What a tick does with the bytes after a start marker is what the instruction does that they decode to
with it. -/
theorem withBody_runs_decoded {raw : List Byte} {s : State} {i : Instr} (hr : s.lifecycle = .running)
    (hi : s.worker.phase = .idle) (hle : raw.length ≤ bodyLen)
    (hdec : decode s.params (s.params.startMark :: raw) = .instr i []) :
    exec i s = .next (withBody raw s) ∧ i.wf s.params = true := by
  rcases Nat.lt_or_eq_of_le hle with hlt | heq
  · cases (decode_truncated hlt).symm.trans hdec
    have hwf : (Instr.rejectTruncated raw).wf s.params = true := by simpa [Instr.wf] using hlt
    rw [withBody, if_pos hlt]
    exact ⟨(RejectRow.truncated raw).exec_of_wf hr hi hwf, hwf⟩
  · have hbody := decode_body (p := s.params) heq []
    rw [List.append_nil] at hbody
    cases hbody.symm.trans hdec
    exact ⟨exec_rowOfBody hr hi heq, (rowOfBody_wf_encode s.params heq).1⟩

/-- What a tick makes of the bytes it took is what the instruction does that they decode to. -/
theorem tickThrough_runs_decoded {s s2 : State} {bytes : List Byte} {i : Instr}
    (hr : s.lifecycle = .running) (hi : s.worker.phase = .idle) (hfetch : fetch s = (bytes, s2))
    (hdec : decode s.params bytes = .instr i []) :
    exec i s2 = .next (tickThrough s) ∧ s.transport.rx = bytes ++ s2.transport.rx ∧
      i.wf s.params = true := by
  rcases tickThrough_cases s with ⟨-, hf, -⟩ | ⟨b, rest, hrx, hb, hf, e⟩ |
    ⟨rest, raw, u, hrx, hread, hf, e⟩ <;> cases hf.symm.trans hfetch
  · cases hdec
  · cases (decode_notStart hb []).symm.trans hdec
    have hwf : (Instr.rejectNotStart b).wf s.params = true := by simpa [Instr.wf] using hb
    have hexec := (RejectRow.notStart b).exec_of_wf (s := blockUpTo s.params.tPoll (setRx rest s)) hr hi hwf
    rw [emit_nil, ← e] at hexec
    exact ⟨hexec, hrx, hwf⟩
  · obtain ⟨hrest, hle, hu, -⟩ := bodyRead_eq hread
    have hp : s2.params = s.params := by rw [hu]; rfl
    rw [← hp] at hdec ⊢
    obtain ⟨hexec, hwf⟩ := withBody_runs_decoded (by rw [hu]; exact hr) (by rw [hu]; exact hi) hle hdec
    exact ⟨hexec.trans (by rw [e]), by rw [hrx, hrest, hp]; rfl, hwf⟩

/-- Settles O40, by `tickThrough_runs_decoded` at the state in which the tick is made. -/
theorem stepRunsTheDecodedInstruction : Obligations.StepRunsTheDecodedInstruction := by
  unfold Obligations.StepRunsTheDecodedInstruction
  intro s ms bytes i s1 s2 hr hi hno hsched hs1 hfetch hdec
  subst hs1
  obtain ⟨hexec, hrx, hwf⟩ := tickThrough_runs_decoded (s := turnOf { s.world with sched := ms } s)
    hr hi hfetch hdec
  exact ⟨(step_tick hr hi hno hsched).trans hexec.symm, hrx, hwf⟩

/-! ### Encoded instructions and calls -/

/-- Settles O41: `TXB` is the frame of the `SET` it decodes to. -/
theorem stepSendsTheEncodedInstruction : Obligations.StepSendsTheEncodedInstruction := by
  unfold Obligations.StepSendsTheEncodedInstruction
  intro s ms i hr hph hsched hdec
  obtain ⟨y, m, q, rfl, htxb⟩ := decodeSent_eq_some hdec
  refine ⟨_, exec_set (s := turnOf { s.world with sched := ms } s) hr y m q, ?_⟩
  have hedge := workerEdge_oppWrite (s := turnOf { s.world with sched := ms } s) hph
  rw [show (turnOf { s.world with sched := ms } s).worker.txb = setFrame s.params y m q from htxb.symm]
    at hedge
  exact (step_worker hr hsched).trans hedge

/-- A caller that is inside no operation has nothing to return from. -/
theorem returnFirst_of_outside {n : Nat} {s : State} (hd : s.gDS ≠ some n)
    (hq : ∀ d, s.gCQ ≠ some (n, d)) : returnFirst n s = s := by
  have hq' : s.gCQ.map (fun h => h.1) ≠ some n := by
    intro h
    obtain ⟨⟨m, d⟩, hg, rfl⟩ := Option.map_eq_some_iff.mp h
    exact hq d hg
  simp only [returnFirst, if_neg hd, if_neg hq']

/-- Settles O42: the caller has nothing to return from, so its call runs at once. -/
theorem stepRunsTheCall : Obligations.StepRunsTheCall := by
  unfold Obligations.StepRunsTheCall
  intro s n c ms hsched hd hq
  have hfirst := returnFirst_of_outside (s := { s with world := { s.world with sched := ms } }) hd hq
  rw [step_of_sched hsched, performMove, hfirst]
  rfl

/-! ### Nobody scheduled -/

/-- The worker has an edge in every phase, unless it would pop from an empty queue. -/
theorem workerEdge_progress {s : State} (h : s.worker.phase = .oppPop → s.cq ≠ []) :
    ∃ t, workerEdge s = .next t := by
  cases hph : s.worker.phase with
  | idle =>
    rw [workerEdge_idle hph]
    split <;> exact ⟨_, rfl⟩
  | poll =>
    rw [workerEdge_poll hph]
    split <;> exact ⟨_, rfl⟩
  | body =>
    rw [workerEdge_body hph]
    split <;> exact ⟨_, rfl⟩
  | decode => rcases workerEdge_decode hph with ⟨-, e⟩ | ⟨-, e⟩ | ⟨f, -, e⟩ <;> exact ⟨_, e⟩
  | classify => rcases workerEdge_classify hph with ⟨-, e⟩ | ⟨-, -, e⟩ | ⟨-, -, e⟩ <;> exact ⟨_, e⟩
  | oppPop =>
    rcases workerEdge_oppPop hph with ⟨hq, -⟩ | ⟨d, ds, -, e⟩
    · rw [settleCQ_cq_waiting] at hq
      exact absurd (List.append_eq_nil_iff.mp hq).1 (h hph)
    · exact ⟨_, e⟩
  | oppEncode => exact ⟨_, workerEdge_oppEncode hph⟩
  | oppCheck =>
    rw [workerEdge_oppCheck hph]
    split <;> exact ⟨_, rfl⟩
  | oppSettle => exact ⟨_, workerEdge_oppSettle hph⟩
  | oppWrite => exact ⟨_, workerEdge_oppWrite hph⟩
  | oppWait => exact ⟨_, workerEdge_oppWait hph⟩
  | statusApply => exact ⟨_, workerEdge_statusApply hph⟩

/-- The worker's move, be it an edge or the shutdown: it stays the one who moved. -/
theorem workerEdge_actor {s t : State} (h : workerEdge s = .next t) : t.actor = s.actor := by
  by_cases hgo : s.worker.phase = .idle ∧ s.shutdownReq = true
  · rw [workerEdge_idle hgo.1, if_pos hgo.2] at h
    cases h
    obtain ⟨-, -, -, -, -, -, -, -, hactor, -⟩ := stop_frame s
    exact hactor
  · exact (workerMove_of_edge (edge_of_workerEdge hgo h)).control.actor

/-- With nobody scheduled and both guards free, the worker moves. -/
theorem step_unscheduled {s : State} (h : Inv s) (hr : s.lifecycle = .running)
    (hsched : s.world.sched = []) (hd : s.gDS = none) (hq : s.gCQ = none) :
    ∃ t, step s = .next t ∧ t.actor = .worker := by
  have hstep : step s = workerEdge (turnOf s.world s) :=
    (step_of_no_sched hsched (by simp [hr]) hd hq).trans (whenRunning_of_running hr _)
  obtain ⟨t, ht⟩ := workerEdge_progress (s := turnOf s.world s) h.popReady
  exact ⟨t, hstep.trans ht, workerEdge_actor ht⟩

/-- With nobody scheduled and the store's guard free, whoever holds the queue's guard lets go of it. -/
theorem run_frees_gCQ {s : State} (hr : s.lifecycle = .running) (hsched : s.world.sched = [])
    (hd : s.gDS = none) : ∃ k, k ≤ 1 ∧ core.run k s = .next (settleCQ s) := by
  cases hq : s.gCQ with
  | none => exact ⟨0, by omega, by rw [settleCQ_of_free hq]; rfl⟩
  | some g => exact ⟨1, le_rfl, run_of_step (step_frees_gCQ hsched hr hd hq) 0⟩

/-- With nobody scheduled, whoever holds a guard lets go of it within two steps, and nothing else happens. -/
theorem run_frees_guards {s : State} (hr : s.lifecycle = .running) (hsched : s.world.sched = []) :
    ∃ k, k ≤ 2 ∧ core.run k s = .next (settleCQ (settleDS s)) := by
  cases hd : s.gDS with
  | none =>
    obtain ⟨k, hk, hrun⟩ := run_frees_gCQ hr hsched hd
    exact ⟨k, by omega, by rw [settleDS_of_free hd, hrun]⟩
  | some n =>
    obtain ⟨k, hk, hrun⟩ :=
      run_frees_gCQ (s := settleDS s) (by simp [hr]) (by simp [hsched]) (by simp)
    exact ⟨k + 1, by omega, (run_of_step (step_frees_gDS hsched hr hd) k).trans hrun⟩

/-- Settles O44: the guards are freed one after the other, and then the worker has an edge. -/
theorem workerNeverSticks : Obligations.WorkerNeverSticks := by
  unfold Obligations.WorkerNeverSticks
  intro s h hr hsched
  refine ⟨?_, ?_⟩
  · cases hd : s.gDS with
    | some n => exact ⟨_, step_frees_gDS hsched hr hd⟩
    | none =>
      cases hq : s.gCQ with
      | some g => exact ⟨_, step_frees_gCQ hsched hr hd hq⟩
      | none => exact (step_unscheduled h hr hsched hd hq).imp fun _ ht => ht.1
  · obtain ⟨k, hk, hrun⟩ := run_frees_guards hr hsched
    have hmove := (SideMove.of_settleDS s).trans (.of_settleCQ _)
    obtain ⟨u, hu, hactor⟩ := step_unscheduled (s := settleCQ (settleDS s)) (hmove.inv h)
      (hmove.lifecycle.trans hr) (by simp [hsched]) (by simp) (by simp)
    refine ⟨k, settleCQ (settleDS s), u, hk, hrun, by simp, by simp, ?_, by simp, by simp, by simp, ?_,
      ?_, by simp, by simp, by simp, hu, hactor⟩
    · rw [settleCQ_replies_waiting, settleDS_replies_waiting]
      simp [waitingEntryReply]
    · rw [settleCQ_cq_waiting]
      simp [waitingEntry]
    · simp [SameControl]

end Sys2Proof.Machine
end

section
/-! PROOFS. Start-up, failure and shutdown (spec/70_reset_and_hazards.md sections 1 and 2), and where terms of
the table stop (spec/30_encoding.md section 4, spec/93_implementation_defined.md section 1). -/
namespace Sys2Proof.Machine

/-! ### Start-up -/

/-- A start-up outside `Running` and `InitFailed` with legal parameters (R150, R168). -/
theorem performMove_startUp {s : State} {p : Params} (hr : s.lifecycle ≠ .running)
    (hf : s.lifecycle ≠ .initFailed) (hv : p.valid = true) (opened : Bool) (rx : List Byte) :
    performMove (.startUp p opened rx) s = .next (startUp p opened rx s) := by
  simp [performMove, hr, hf, hv]

/-- A scheduled start-up of a block that is new or has been shut down. -/
theorem step_startUp {s : State} {p : Params} {opened : Bool} {rx : List Byte} {ms : List Move}
    (h : s.lifecycle = .uninit ∨ s.lifecycle = .stopped) (hv : p.valid = true)
    (hsched : s.world.sched = .startUp p opened rx :: ms) :
    step s = .next (startUp p opened rx { s with world := { s.world with sched := ms } }) := by
  rw [step_of_sched hsched]
  rcases h with h | h <;> exact performMove_startUp (by simp [h]) (by simp [h]) hv opened rx

/-- Settles O55: at reset the unscheduled move is the start-up with legal parameters. -/
theorem resetStartsUp : Obligations.ResetStartsUp := by
  unfold Obligations.ResetStartsUp
  have hstep : step State.reset = .next (startUp (legalParams Config.params)
      (Config.transportOpens State.reset.world.draws) (Config.rxAtStartUp State.reset.world.draws)
      (nextMove State.reset).2) :=
    performMove_startUp (s := (nextMove State.reset).2) (by decide) (by decide)
      (legalParams_valid Config.params) _ _
  refine ⟨_, hstep, ?_, legalParams_valid Config.params, rfl, rfl, rfl, rfl⟩
  cases h : Config.transportOpens State.reset.world.draws <;> simp [startUp]

/-- Settles O56: the start-up writes every register. -/
theorem startUpGivesTheResetValues : Obligations.StartUpGivesTheResetValues := by
  unfold Obligations.StartUpGivesTheResetValues
  intro s p rx ms hlife hv hsched
  exact ⟨_, step_startUp hlife hv hsched, rfl, rfl, rfl, rfl, rfl, rfl, rfl, rfl, rfl, rfl, rfl⟩

/-- Settles O57: a start-up that finds no transport, then steps from `InitFailed`, which can only be side
moves, and a start-up there. -/
theorem transportFailureIsFatal : Obligations.TransportFailureIsFatal := by
  unfold Obligations.TransportFailureIsFatal
  refine ⟨fun s p rx ms hlife hv hsched => ?_, fun s t hf h hstep => ?_, fun s p opened rx ms hf hsched => ?_⟩
  · exact ⟨_, step_startUp hlife hv hsched, rfl, rfl, rfl⟩
  · have hn : s.lifecycle ≠ .running := by simp [hf]
    cases stepKind_of_step hstep with
    | edge _ _ hr => exact absurd hr hn
    | tick _ _ hr => exact absurd hr hn
    | stop _ hr => exact absurd hr hn
    | start _ _ _ _ _ hnf => exact absurd hf hnf
    | side hm =>
      obtain ⟨-, hd, hq, -⟩ := h.notRunning hn
      obtain ⟨hd', hq', hcq⟩ := hm.outside hn hd hq
      exact ⟨hm.lifecycle.trans hf, hm.written, hm.events, ⟨hm.ds, hd'.trans hd.symm⟩, hcq, hq'.trans hq.symm⟩
  · rw [step_of_sched hsched]
    simp [performMove, hf]

/-! ### Shutdown -/

/-- With a shutdown requested, the worker's next move stops it between ticks and is an edge elsewhere. -/
theorem worker_turn_of_shutdown {s t : State} (hr : s.lifecycle = .running) (hreq : s.shutdownReq = true)
    (hnext : s.world.sched.head? = some .worker ∨
      (s.world.sched.head? = some .tick ∧ s.worker.phase = .idle) ∨
      (s.world.sched = [] ∧ s.gDS = none ∧ s.gCQ = none)) (h : step s = .next t) :
    ∃ w, (s.worker.phase = .idle ∧ t = stop (turnOf w s)) ∨
      (s.worker.phase ≠ .idle ∧ Edge (turnOf w s) t) := by
  have hedge : ∀ w, workerEdge (turnOf w s) = .next t →
      (s.worker.phase = .idle ∧ t = stop (turnOf w s)) ∨
        (s.worker.phase ≠ .idle ∧ Edge (turnOf w s) t) := by
    intro w hw
    by_cases hi : s.worker.phase = .idle
    · have hstop := (workerEdge_idle (s := turnOf w s) hi).trans (if_pos hreq)
      exact .inl ⟨hi, Host.Outcome.next.inj (hw.symm.trans hstop)⟩
    · exact .inr ⟨hi, edge_of_workerEdge (fun hgo => hi hgo.1) hw⟩
  rcases hnext with hhead | ⟨hhead, hi⟩ | ⟨hsched, hd, hq⟩
  · obtain ⟨ms, hsched⟩ := List.head?_eq_some_iff.mp hhead
    exact ⟨_, hedge _ ((step_worker hr hsched).symm.trans h)⟩
  · obtain ⟨ms, hsched⟩ := List.head?_eq_some_iff.mp hhead
    rw [step_of_sched hsched, performMove, if_pos ⟨hr, hreq, hi⟩] at h
    exact ⟨{ s.world with sched := ms }, .inl ⟨hi, (Host.Outcome.next.inj h).symm⟩⟩
  · rw [step_of_no_sched hsched (by simp [hr]) hd hq] at h
    exact ⟨s.world, hedge _ ((whenRunning_of_running hr _).symm.trans h)⟩

/-- Settles O58, by the phase the worker is in. -/
theorem shutdownTakesEffectBetweenTicks : Obligations.ShutdownTakesEffectBetweenTicks := by
  unfold Obligations.ShutdownTakesEffectBetweenTicks
  intro s t hr hreq hnext h
  obtain ⟨w, ⟨hi, rfl⟩ | ⟨hi, hedge⟩⟩ := worker_turn_of_shutdown hr hreq hnext h
  · obtain ⟨hlife, hconfig, hcq, -, -, -, -, -, -, hwritten, hevents, -⟩ := stop_frame (turnOf w s)
    exact ⟨fun _ => ⟨hlife, hconfig, hcq, hwritten, hevents⟩, fun hn => absurd hi hn⟩
  · have hm := workerMove_of_edge hedge
    exact ⟨fun h => absurd h hi, fun _ => ⟨hm.control.lifecycle.trans hr, hm.config⟩⟩

/-! ### Where terms stop -/

theorem whenBetweenTicks_of_not_running {s : State} (h : s.lifecycle ≠ .running) (r : Result) :
    whenBetweenTicks s r = .fault (.notRunning s.lifecycle) := whenRunning_of_not_running h _

theorem whenBetweenTicks_of_not_idle {s : State} (h : s.lifecycle = .running) (hi : s.worker.phase ≠ .idle)
    (r : Result) : whenBetweenTicks s r = .fault .tickOverlap :=
  (whenRunning_of_running h _).trans (if_neg hi)

/-- Settles O59: every such operation is guarded by `whenRunning`. -/
theorem noOperationOutsideRunning : Obligations.NoOperationOutsideRunning := by
  unfold Obligations.NoOperationOutsideRunning
  intro s i hn h
  simp only [List.mem_cons, List.not_mem_nil, or_false] at h
  rcases h with (rfl | rfl | rfl | rfl | rfl) | ⟨d, rfl | rfl⟩ | ⟨f, rfl⟩ | ⟨n, k, rfl | rfl | rfl⟩ |
    ⟨b, rfl⟩ | ⟨a, b, c, rfl⟩ | ⟨a, c, d, rfl | rfl | rfl | rfl⟩ | ⟨a, b, c, d, rfl⟩ <;>
    exact whenRunning_of_not_running hn _

/-- A reject row, whichever it is. -/
theorem rejectRow_exists {i : Instr} (h : (∃ b, i = .rejectNotStart b) ∨
    (∃ r, i = .rejectTruncated r ∨ i = .rejectInvalidEnd r ∨ i = .rejectChecksum r)) :
    ∃ es, RejectRow i es := by
  rcases h with ⟨b, rfl⟩ | ⟨r, rfl | rfl | rfl⟩
  · exact ⟨_, .notStart b⟩
  · exact ⟨_, .truncated r⟩
  · exact ⟨_, .invalidEnd r⟩
  · exact ⟨_, .checksum r⟩

/-- Row `InterpretStatusFrame.other` with a command of another row. -/
theorem exec_interpretOther_of_not_wf {p : Params} {c : Byte} {d : Data} {prior : DeviceState}
    (h : (Instr.interpretOther c d prior).wf p = false) (s : State) :
    exec (.interpretOther c d prior) s = .refused .illFormed := by
  simp only [Instr.wf, Bool.and_eq_false_iff, bne_eq_false_iff_eq] at h
  exact if_pos h

/-- Settles O60: the domains of the codec's operations, and the guards of the rows. -/
theorem termsOutsideTheirDomainStop : Obligations.TermsOutsideTheirDomainStop := by
  unfold Obligations.TermsOutsideTheirDomainStop
  refine ⟨fun s i hwf h => ?_, fun s b hb => ?_, fun s b hb => ?_, fun s i hwf h => ?_, fun s i hr hi h => ?_⟩
  · rw [← or_assoc] at h
    rcases h with h | ⟨c, d, prior, rfl⟩
    · obtain ⟨es, hrow⟩ := rejectRow_exists h
      rw [hrow.exec_eq, if_neg (by simp [hwf])]
    · exact exec_interpretOther_of_not_wf hwf s
  · exact if_neg (Nat.not_le.mpr hb)
  · exact if_neg hb
  · obtain ⟨es, hrow⟩ := rejectRow_exists h
    rw [hrow.exec_eq, if_pos hwf]
    exact ⟨fun hn => whenBetweenTicks_of_not_running hn _, fun hr hi => whenBetweenTicks_of_not_idle hr hi _⟩
  · rcases h with rfl | ⟨a, c, d, rfl | rfl | rfl | rfl⟩ | ⟨a, b, c, d, rfl⟩ <;>
      exact whenBetweenTicks_of_not_idle hr hi _

end Sys2Proof.Machine
end
